-- ==== Sys2Proof/Word.lean ====
section
/-! DEFINITION. The word types of BPSK-CORE. The numerics is `NUM_IEEE32` (R9), so a datapath value
is the 32-bit image of a binary32 number, and every register and port carries it whole (R64). -/

namespace Sys2Proof

/-- A datapath value: the binary32 image `V` of `NUM_IEEE32` (R9). Bit 31 is the sign, bits 30:23 the
biased exponent, bits 22:0 the fraction (R64, R85). -/
abbrev V := BitVec 32

/-- The 32-bit image of a CSR location (R35). -/
abbrev Image := BitVec 32

/-- A 44-bit command word of format H (R81). -/
abbrev CommandWord := BitVec 44

/-- The 4-bit sequencer phase, format U (R24, R84). -/
abbrev Phase := BitVec 4

/-- A CSR number, the `idx` field of a command word (R35, R81). -/
abbrev CsrIndex := BitVec 8

end Sys2Proof
end

