-- ==== Sys2Proof/Syntax.lean ====
section
/-! DEFINITION. The operations of BPSK-CORE: one constructor per row of `spec/opcode_table.json`, the seven
host commands of R82 and the nine micro-operations of R84. -/

namespace Sys2Proof

/-- An operation. A host command carries both fields of its command word, also those the block ignores
(R81), so that decoding drops no bit; `Instr.wf` says which of them a host should send as zero. A
micro-operation carries nothing: the sequencer phase is its whole encoding and its operands are fixed
registers (R84). -/
inductive Instr where
  /-- RESET, R222. Both fields are ignored. -/
  | reset (idx : CsrIndex) (data : BitVec 32)
  /-- CFGW, R220: configuration register number and the 32-bit image to write. -/
  | cfgw (idx : CsrIndex) (data : BitVec 32)
  /-- CSRR, R221: register number; `data` is ignored. -/
  | csrr (idx : CsrIndex) (data : BitVec 32)
  /-- DESIGN, R116. Both fields are ignored. -/
  | design (idx : CsrIndex) (data : BitVec 32)
  /-- TICK, R206: `data` is the sample; `idx` is ignored. -/
  | tick (idx : CsrIndex) (data : BitVec 32)
  /-- EOS, R218. Both fields are ignored. -/
  | eos (idx : CsrIndex) (data : BitVec 32)
  /-- SERR, R219. Both fields are ignored. -/
  | serr (idx : CsrIndex) (data : BitVec 32)
  /-- ACQ, phase 0, R208. -/
  | acq
  /-- NCO.STEP, phase 1, R130. -/
  | ncoStep
  /-- MIX, phase 2, R137. -/
  | mix
  /-- FIR.I, phase 3, R111. -/
  | firI
  /-- FIR.Q, phase 4, R113. -/
  | firQ
  /-- LOOP.UPDATE, phase 5, R150. -/
  | loopUpdate
  /-- LOCK.EVAL, phase 6, R170. -/
  | lockEval
  /-- DEC.STEP, phase 7, R185. -/
  | decStep
  /-- TLM.EMIT, phase 8, R216. -/
  | tlmEmit
deriving DecidableEq, Repr

end Sys2Proof
end

