-- ==== Sys2Proof/WellFormed.lean ====
section
/-! DEFINITION. Which operations a host sends as R81 asks: "A field an operation does not use is ignored by
the block and should be sent as zero." The types of `Instr` leave nothing else to check. -/

namespace Sys2Proof

/-- The fields the operation does not use (R81, R82) are zero. -/
def Instr.wf : Instr → Bool
  | .reset idx data => idx == 0 && data == 0
  | .cfgw _ _ => true
  | .csrr _ data => data == 0
  | .design idx data => idx == 0 && data == 0
  | .tick idx _ => idx == 0
  | .eos idx data => idx == 0 && data == 0
  | .serr idx data => idx == 0 && data == 0
  | .acq => true
  | .ncoStep => true
  | .mix => true
  | .firI => true
  | .firQ => true
  | .loopUpdate => true
  | .lockEval => true
  | .decStep => true
  | .tlmEmit => true

/-- A well-formed operation. -/
abbrev Instr.WellFormed (i : Instr) : Prop := i.wf = true

end Sys2Proof
end

