-- ==== Sys2Proof/Decode.lean ====
section
/-! DEFINITION. Decoding and encoding of command words (R81, R82, R86) and sequencer phases (R24, R84, R95).
The decoder is total and rejects by name; the encoder is written from the same tables. -/

namespace Sys2Proof

/-- Why a code selects no operation. -/
inductive DecodeError where
  /-- Bits 43:40 are 0x0 or 0x8 to 0xF (R86). -/
  | reservedOp (op : BitVec 4)
  /-- A sequencer phase 9 to 15, which is never taken (R24). -/
  | phaseNeverTaken (ph : Phase)
deriving DecidableEq, Repr

/-- What selects an operation: a command word on the command port, or the phase of the sequencer (R80). -/
inductive Code where
  | command (w : CommandWord)
  | phase (ph : Phase)
deriving DecidableEq, Repr

/-- Bits 43:40 of a command word (R81). -/
def opField (w : CommandWord) : BitVec 4 := w.extractLsb' 40 4

/-- Bits 39:32 of a command word (R81). -/
def idxField (w : CommandWord) : CsrIndex := w.extractLsb' 32 8

/-- Bits 31:0 of a command word (R81). -/
def dataField (w : CommandWord) : BitVec 32 := w.extractLsb' 0 32

/-- The host command a command word selects, told by its `op` field alone (R81, R82, R95). -/
def decodeCommand (w : CommandWord) : Except DecodeError Instr :=
  match (opField w).toNat with
  | 1 => .ok (.reset (idxField w) (dataField w))
  | 2 => .ok (.cfgw (idxField w) (dataField w))
  | 3 => .ok (.csrr (idxField w) (dataField w))
  | 4 => .ok (.design (idxField w) (dataField w))
  | 5 => .ok (.tick (idxField w) (dataField w))
  | 6 => .ok (.eos (idxField w) (dataField w))
  | 7 => .ok (.serr (idxField w) (dataField w))
  | _ => .error (.reservedOp (opField w))

/-- The micro-operation a sequencer phase selects (R84, R95). -/
def decodePhase (ph : Phase) : Except DecodeError Instr :=
  match ph.toNat with
  | 0 => .ok .acq
  | 1 => .ok .ncoStep
  | 2 => .ok .mix
  | 3 => .ok .firI
  | 4 => .ok .firQ
  | 5 => .ok .loopUpdate
  | 6 => .ok .lockEval
  | 7 => .ok .decStep
  | 8 => .ok .tlmEmit
  | _ => .error (.phaseNeverTaken ph)

/-- The operation a code selects. -/
def decode : Code → Except DecodeError Instr
  | .command w => decodeCommand w
  | .phase ph => decodePhase ph

/-- The command word `{op, idx, data}` (R81). -/
def commandWord (op : BitVec 4) (idx : CsrIndex) (data : BitVec 32) : CommandWord :=
  op ++ idx ++ data

/-- The code of an operation (R82, R84). -/
def encode : Instr → Code
  | .reset idx data => .command (commandWord 0x1 idx data)
  | .cfgw idx data => .command (commandWord 0x2 idx data)
  | .csrr idx data => .command (commandWord 0x3 idx data)
  | .design idx data => .command (commandWord 0x4 idx data)
  | .tick idx data => .command (commandWord 0x5 idx data)
  | .eos idx data => .command (commandWord 0x6 idx data)
  | .serr idx data => .command (commandWord 0x7 idx data)
  | .acq => .phase 0
  | .ncoStep => .phase 1
  | .mix => .phase 2
  | .firI => .phase 3
  | .firQ => .phase 4
  | .loopUpdate => .phase 5
  | .lockEval => .phase 6
  | .decStep => .phase 7
  | .tlmEmit => .phase 8

/-- The code whose bits `spec/opcode_table.json` numbers as `w`: its rows of format U are 4 bits wide and
fit one byte, its rows of format H 44 bits and fit six. Bits above the row's width are padding. -/
def codeOfTable (nbits w : Nat) : Code :=
  if nbits ≤ 8 then .phase (BitVec.ofNat 4 w) else .command (BitVec.ofNat 44 w)

/-- The operation the decoder reads from the bits `w` of a table row of `nbits` bits. -/
def decodeTableWord (nbits w : Nat) : Option Instr := (decode (codeOfTable nbits w)).toOption

end Sys2Proof
end

