-- ==== Sys2Proof/Config.lean ====
section
/-! DEFINITION. What an implementation fixes and the spec leaves open (R3): the free values of the
arithmetic, as constants without a body, and the parameters for which the spec gives a default. -/

namespace Sys2Proof.Config

/-- The four arithmetic operations whose NaN results have no stated image (R9). -/
inductive FpOp where
  | add
  | sub
  | mul
  | div
deriving DecidableEq, Repr

/-- FREE VALUE (log 3). The image an implementation gives the NaN that an operation makes of its two
operands: R9 says that the result is a NaN, not which one. `F32.nanOf` keeps it a NaN. -/
opaque nanImage : FpOp → V → V → V

/-- FREE VALUE (log 2). The implementation's sine. `F32.sin` holds it to what R9 states. -/
opaque sinImage : V → V

/-- FREE VALUE (log 2). The implementation's cosine. `F32.cos` holds it to what R9 states. -/
opaque cosImage : V → V

/-- `WC_BITS`, the width of the wave counter, at the default of R3. -/
def wcBits : Nat := 32

/-- The largest value a wave counter of `WC_BITS` bits holds (R23). -/
def wcMax : Nat := 2 ^ wcBits - 1

/-- `EXIT_FAIL_CODE`, at the default of R3. -/
def exitFailCode : BitVec 8 := 1

/-- `N_MAX`, the physical depth of the memories. DESIGN CHOICE (log 7): unbounded, as R62 lets a model
take it. -/
def nMax : Option Nat := none

/-- The byte order of the sample stream's adapter (R64). -/
inductive ByteOrder where
  | little
  | big
deriving DecidableEq, Repr

/-- `SAMPLE_BYTE_ORDER`, at the default of R3. Only the adapter outside the core uses it. -/
def sampleByteOrder : ByteOrder := .little

end Sys2Proof.Config
end

