-- ==== Sys2Proof/Machine/Num.lean ====
section
/-! DEFINITION. The numerics record `NUM` over which the datapath is specified (R8). The datapath's
machine is written once over it: the machine of the fixed names runs on `F32.ieee32`, the default (R3), and
`realNum` reasons. -/

namespace Sys2Proof.Machine

/-- `NUM` (R8): the operations on datapath values that the rules use, and nothing else. A decimal literal
is given as a fraction `p / q`. -/
structure Num (α : Type) where
  ofSample : BitVec 32 → α
  ofLit : Int → Nat → α
  ofNat : Nat → α
  fadd : α → α → α
  fsub : α → α → α
  fmul : α → α → α
  fdiv : α → α → α
  fneg : α → α
  fabs : α → α
  fsin : α → α
  fcos : α → α
  fgt : α → α → Bool
  fge : α → α → Bool
  feq : α → α → Bool
  finite : α → Bool
  pi : α

/-- The datapath's zero, `ofNat 0`. -/
def Num.zero {α : Type} (n : Num α) : α := n.ofNat 0

/-- `TWO_PI = fmul(ofNat 2, PI)` (R8). -/
def Num.twoPi {α : Type} (n : Num α) : α := n.fmul (n.ofNat 2) n.pi

/-- The parameters of R3 that no register holds: what the machine takes as its argument. The other rows of R3 are the
configuration registers (R36). -/
structure Impl (α : Type) where
  /-- `NUM`. -/
  num : Num α
  /-- Where `ofSample` is defined: everywhere under `NUM_IEEE32`, on finite patterns under `NUM_REAL` (R9, R208). -/
  sampleDefined : BitVec 32 → Bool
  /-- `WC_BITS`; `none` is the unbounded counter that R23 calls normative. -/
  wcBits : Option Nat
  /-- `EXIT_FAIL_CODE`. -/
  exitFailCode : BitVec 8
  /-- `N_MAX`; `none` is unbounded (R62). -/
  nMax : Option Nat

end Sys2Proof.Machine
end

