-- ==== Sys2Proof/Machine/F32.lean ====
section
/-! DEFINITION. `NUM_IEEE32` (R9): binary32 arithmetic, each operation exact and then rounded once, to
nearest, ties to even. Finite operands become a sign, a natural significand and the exponent of its unit;
the result is computed exactly over the integers and narrowed by `F32.round` alone. -/

namespace Sys2Proof.Machine.F32

/-- The image of positive infinity, the first magnitude that is not finite. -/
def infMag : Nat := 0x7F800000

/-- The image of 1. -/
def one : V := 0x3F800000

/-- `PI` (R9). -/
def piImage : V := 0x40490FDB

/-- The biased exponent, bits 30:23 (R85). -/
def expField (v : V) : Nat := v.toNat / 2 ^ 23 % 256

/-- The fraction, bits 22:0 (R85). -/
def fracField (v : V) : Nat := v.toNat % 2 ^ 23

/-- The magnitude: the image without its sign bit. Magnitudes of numbers are ordered as naturals. -/
def mag (v : V) : Nat := v.toNat % 2 ^ 31

/-- False for infinities and NaNs (R9). -/
def finite (v : V) : Bool := decide (mag v < infMag)

def isNaN (v : V) : Bool := decide (infMag < mag v)

def isInf (v : V) : Bool := decide (mag v = infMag)

def isZero (v : V) : Bool := decide (mag v = 0)

/-- The significand of a finite value in units of `2 ^ unit v`; a subnormal has no hidden bit (R9 keeps
subnormals). -/
def signif (v : V) : Nat := if expField v = 0 then fracField v else fracField v + 2 ^ 23

/-- The exponent of the unit of a finite value's significand. -/
def unit (v : V) : Int := (max (expField v) 1 : Nat) - 150

/-- The significand with its sign. -/
def signed (v : V) : Int := if v.msb then -(signif v : Int) else signif v

/-- The image with the given sign and magnitude. -/
def pack (neg : Bool) (m : Nat) : V := BitVec.ofNat 32 ((if neg then 2 ^ 31 else 0) + m)

/-- `m / 2 ^ d` rounded to nearest, ties to even. -/
def shiftRne (m d : Nat) : Nat :=
  let t := m / 2 ^ d
  let r := m % 2 ^ d
  if 2 ^ d < 2 * r ∨ (2 * r = 2 ^ d ∧ t % 2 = 1) then t + 1 else t

/-- The binary32 value nearest to `± m * 2 ^ e`, ties to even; infinity past the largest number (R9). The
unit of the result is that of a 24-bit significand, but never below the subnormal unit `2 ^ -149`. -/
def round (neg : Bool) (m : Nat) (e : Int) : V :=
  if m = 0 then pack neg 0
  else
    let q := max (e + (Nat.log2 m : Int) - 23) (-149)
    let t := if q ≤ e then m * 2 ^ (e - q).toNat else shiftRne m (q - e).toNat
    pack neg (min ((q + 149).toNat * 2 ^ 23 + t) infMag)

/-- The NaN an operation makes of two operands: whatever the implementation gives, but a NaN (log 3). -/
def nanOf (op : Config.FpOp) (a b : V) : V :=
  if isNaN (Config.nanImage op a b) then Config.nanImage op a b else 0x7FC00000

/-- `fneg` flips the sign bit (R9). -/
def neg (v : V) : V := v ^^^ 0x80000000

/-- `fabs` clears the sign bit (R9). -/
def abs (v : V) : V := v &&& 0x7FFFFFFF

/-- The sum of two finite values. An exact zero is `-0` only when both operands are `-0`. -/
def addFinite (a b : V) : V :=
  let e := min (unit a) (unit b)
  let x := signed a * 2 ^ (unit a - e).toNat + signed b * 2 ^ (unit b - e).toNat
  if x = 0 then pack (a.msb && b.msb) 0 else round (decide (x < 0)) x.natAbs e

/-- Addition, with `nan` the result where it is a NaN. -/
def addOr (nan a b : V) : V :=
  if isNaN a || isNaN b then nan
  else if isInf a then (if isInf b && (a.msb != b.msb) then nan else a)
  else if isInf b then b
  else addFinite a b

/-- `fadd` (R9). -/
def add (a b : V) : V := addOr (nanOf .add a b) a b

/-- `fsub` (R9). -/
def sub (a b : V) : V := addOr (nanOf .sub a b) a (neg b)

/-- `fmul` (R9). -/
def mul (a b : V) : V :=
  if isNaN a || isNaN b then nanOf .mul a b
  else if isInf a || isInf b then
    (if isZero a || isZero b then nanOf .mul a b else pack (a.msb != b.msb) infMag)
  else round (a.msb != b.msb) (signif a * signif b) (unit a + unit b)

/-- The quotient of two positive significands: 50 extra bits, and a last bit that says whether anything was
cut off, so that `round` sees every tie as it is. -/
def quotient (m d : Nat) : Nat :=
  2 * (m * 2 ^ 50 / d) + (if m * 2 ^ 50 % d = 0 then 0 else 1)

/-- `fdiv` (R9). A finite value other than zero divided by zero is an infinity, `0 / 0` a NaN. -/
def div (a b : V) : V :=
  if isNaN a || isNaN b then nanOf .div a b
  else if isInf a then (if isInf b then nanOf .div a b else pack (a.msb != b.msb) infMag)
  else if isInf b then pack (a.msb != b.msb) 0
  else if isZero b then (if isZero a then nanOf .div a b else pack (a.msb != b.msb) infMag)
  else round (a.msb != b.msb) (quotient (signif a) (signif b)) (unit a - unit b - 51)

/-- The place of a value in the order of the numbers; the two zeros are one place. -/
def key (v : V) : Int := if v.msb then -(mag v : Int) else mag v

/-- `fgt`: false when an operand is a NaN (R9). -/
def gt (a b : V) : Bool := !isNaN a && !isNaN b && decide (key b < key a)

/-- `fge` (R9). -/
def ge (a b : V) : Bool := !isNaN a && !isNaN b && decide (key b ≤ key a)

/-- `feq`: the two zeros compare equal (R9). -/
def eq (a b : V) : Bool := !isNaN a && !isNaN b && decide (key a = key b)

/-- `ofNat`, rounded (R9). -/
def ofNat (n : Nat) : V := round false n 0

/-- `ofLit` of the fraction `p / q`, rounded (R9). DESIGN CHOICE (log 24): a literal is the number it denotes, so every
zero, `-0.0` too, is `+0`; R9 states no sign for it. -/
def ofLit (p : Int) (q : Nat) : V :=
  let k := 64 + Nat.log2 q
  let m := p.natAbs * 2 ^ k
  round (decide (p < 0)) (2 * (m / q) + (if m % q = 0 then 0 else 1)) (-(k : Int) - 1)

/-- A value of magnitude at most 1: the given one if it is such a value. -/
def inUnit (v : V) : V := if mag v ≤ mag one then v else 0

/-- `fsin`: free but for `fsin(+0) = +0` and results of finite arguments of magnitude at most 1 (R9, log 2). -/
def sin (v : V) : V :=
  if v = 0 then 0 else if finite v then inUnit (Config.sinImage v) else Config.sinImage v

/-- `fcos`: free but for `fcos(+0) = 1` and results of finite arguments of magnitude at most 1 (R9, log 2). -/
def cos (v : V) : V :=
  if v = 0 then one else if finite v then inUnit (Config.cosImage v) else Config.cosImage v

/-- `NUM_IEEE32` (R9): the numerics the machine runs on. -/
def ieee32 : Num V where
  ofSample := id
  ofLit := ofLit
  ofNat := ofNat
  fadd := add
  fsub := sub
  fmul := mul
  fdiv := div
  fneg := neg
  fabs := abs
  fsin := sin
  fcos := cos
  fgt := gt
  fge := ge
  feq := eq
  finite := finite
  pi := piImage

end Sys2Proof.Machine.F32

namespace Sys2Proof.Machine

/-- The implementation at the defaults of R3, on which the machine of the fixed names runs (log 1, 5, 7, 17). -/
def Impl.ieee32 : Impl V where
  num := F32.ieee32
  sampleDefined := fun _ => true
  wcBits := some Config.wcBits
  exitFailCode := Config.exitFailCode
  nMax := Config.nMax

end Sys2Proof.Machine
end

