-- ==== Sys2Proof/Machine/State.lean ====
section
/-! DEFINITION. The architectural state (R20) as plain data, the two ways a step can stop, and the state after
reset (R46). Sub-records follow the spec's own grouping: configuration, derived constants, OscillatorState,
LoopState, DecoderState, FilterState, telemetry. Each is over the carrier `α` of the numerics (R8); `State` without one is
that over `V`, the carrier of the default (R3). -/

namespace Sys2Proof.Machine

/-- A memory of elements (R60, R61): (index, element) pairs, indices strictly rising, no element `ofNat 0`. An
unlisted index reads `ofNat 0`, the element every memory holds after RESET (R46). -/
abbrev Memory (α : Type := V) := List (Nat × α)

/-- The three values of a sign (R28, R151). -/
inductive Sign where
  | neg
  | zero
  | pos
deriving DecidableEq, Repr

/-- `LIFE` (R39, R245). -/
inductive Life where
  | unconfigured
  | running
  | halted
deriving DecidableEq, Repr

/-- `CAUSE` (R39, R230). -/
inductive Cause where
  | none
  | configurationError
  | streamError
deriving DecidableEq, Repr

/-- The faults of R230: the two fatal errors and the two model-level faults. -/
inductive FaultKind where
  | configurationError
  | streamError
  | numericFault
  | counterOverflow
deriving DecidableEq, Repr

/-- The events of the event port (R92). -/
inductive Event (α : Type) where
  | lockAcq
  | lockLost (lockm : α)
  | bit (b : Bool)
  | anomaly
deriving DecidableEq, Repr

/-- The telemetry registers 0x40 to 0x4B and the record TLM.EMIT sends (R43, R93), in that order. -/
structure Telemetry (α : Type) where
  tPeriod : α
  tPhase : α
  sample : α
  i : α
  q : α
  lock : α
  qual : α
  sI : α
  sQ : α
  err : α
  errInt : α
  errC : α
deriving DecidableEq, Repr

/-- What a CSR location carries (R35): a value of type `V`, or the 32-bit word of any other type. The 32-bit image of a
value is defined under `NUM_IEEE32` alone. -/
inductive CsrValue (α : Type) where
  | value (v : α)
  | word (w : Image)
deriving DecidableEq, Repr

/-- One transfer on an output port: response (R90), event (R92) or telemetry (R93). -/
inductive Output (α : Type) where
  | response (r : CsrValue α)
  | event (e : Event α)
  | telemetry (r : Telemetry α)
deriving DecidableEq, Repr

/-- The configuration registers 0x00 to 0x0D (R36). -/
structure CfgRegs (α : Type) where
  nTaps : Image
  sampleRate : α
  cutoff : α
  refPeriod : α
  phaseGain : α
  cycPerClock : Image
  cycPerBit : Image
  lockThr : α
  ampThr : α
  kiFactor : α
  kfFactor : α
  mode : Image
  tPeriodInit : α
  tPhaseInit : α
deriving DecidableEq, Repr

/-- The derived-constant registers 0x10 to 0x14 (R38). -/
structure Derived (α : Type) where
  fc : α
  samplePeriod : α
  integralGain : α
  freqGain : α
  halfThr2 : Nat
deriving DecidableEq, Repr

/-- OscillatorState (R21, R23). -/
structure Oscillator (α : Type) where
  acc : α
  tPeriod : α
  tPhase : α
  wc : Nat
deriving DecidableEq, Repr

/-- LoopState (R26). -/
structure LoopRegs (α : Type) where
  errInt : α
  lockM : α
  qualM : α
deriving DecidableEq, Repr

/-- DecoderState (R27, R28, R29). `short = false` is `Idle`, `short = true` is `AwaitingSecondShort`. -/
structure DecoderRegs where
  locked : Bool
  prevSign : Sign
  short : Bool
deriving DecidableEq, Repr

/-- The values that live only inside one tick (R32), and the operand of the TICK in progress. They are the
wires between the micro-operations; TLM.EMIT ends them (log 10). -/
structure TickLocal (α : Type) where
  data : BitVec 32
  x : α
  i : α
  q : α
  mI : α
  mQ : α
  sI : α
  sQ : α
  err : α
  errC : α
deriving DecidableEq, Repr

/-- The state of BPSK-CORE (R20), with the ports of R81 to R93 as the model's own fields (log 11, 12, 13). -/
structure State (α : Type := V) where
  cfg : CfgRegs α
  drv : Derived α
  osc : Oscillator α
  loop : LoopRegs α
  dec : DecoderRegs
  hi : Memory α
  hq : Memory α
  coef : Memory α
  curI : Nat
  curQ : Nat
  life : Life
  cause : Cause
  exitCode : BitVec 8
  numFault : Bool
  wcOvf : Bool
  /-- The fault recorded of the last DESIGN, TICK or SERR: the first it raised, in pseudocode order (R11, R239). The model's
  own field; no register shows it (log 26). -/
  recorded : Option FaultKind
  tlm : Telemetry α
  ph : Phase
  cmdReady : Bool
  loc : TickLocal α
  cmds : List CommandWord
  rst : Bool
  out : List (Output α)
deriving DecidableEq, Repr

/-- Why the machine stops with a fault. -/
inductive Fault where
  /-- A filter's cursor is outside `0 .. N-1`, so its access names an element that does not exist. Raised by
  FIR.I, FIR.Q and a TICK that runs them; no run from reset reaches it (R74). Safe: the machine stops where
  the spec has no such access. -/
  | historyIndex
deriving DecidableEq, Repr

/-- Why a step has no meaning. -/
inductive Refusal where
  /-- The instruction has no meaning in this model yet. Raised by `exec` alone. Safe. -/
  | notModelled (mnemonic : String)
  /-- DESIGN on a configuration that is not well-formed (R266, R247). Raised by DESIGN. Safe: the spec gives
  DESIGN no meaning there. -/
  | illFormedConfig
  /-- A reserved value of `DISC_SIGN_ZERO`, `DISC_MODE` or `WRAP_POLICY` (R37). Raised by LOOP.UPDATE and a
  TICK that runs it; no run from reset reaches it. Safe: the spec gives no formula for it. -/
  | reservedMode
  /-- A tick in progress at a sequencer phase 9 to 15, which is never taken (R24). Raised by `step`; no run
  from reset reaches it. Safe. -/
  | phaseNeverTaken
deriving DecidableEq, Repr

/-- The configuration registers after RESET (R36): `ofLit` and `ofNat` of the literals. -/
def CfgRegs.initial {α : Type} (n : Num α) : CfgRegs α where
  nTaps := 0
  sampleRate := n.ofNat 192000
  cutoff := n.zero
  refPeriod := n.zero
  phaseGain := n.zero
  cycPerClock := 0
  cycPerBit := 0
  lockThr := n.ofLit 15 100
  ampThr := n.ofLit 38 100
  kiFactor := n.ofLit 12 10
  kfFactor := n.ofLit 25 100
  mode := 0
  tPeriodInit := n.zero
  tPhaseInit := n.zero

/-- The telemetry registers after RESET and after DESIGN (R43). -/
def Telemetry.initial {α : Type} (n : Num α) : Telemetry α where
  tPeriod := n.zero
  tPhase := n.zero
  sample := n.zero
  i := n.zero
  q := n.zero
  lock := n.zero
  qual := n.zero
  sI := n.zero
  sQ := n.zero
  err := n.zero
  errInt := n.zero
  errC := n.zero

/-- No tick in progress: the tick-local values do not exist (R32), and the model holds zeros (log 10). -/
def TickLocal.initial {α : Type} (n : Num α) : TickLocal α where
  data := 0
  x := n.zero
  i := n.zero
  q := n.zero
  mI := n.zero
  mQ := n.zero
  sI := n.zero
  sQ := n.zero
  err := n.zero
  errC := n.zero

/-- The state after RESET or power-on (R46, R260), over any numerics. The block is between commands and the host has
yet to send one; nothing has been sent (log 11, 12, 13). -/
def State.initial {α : Type} (n : Num α) : State α where
  cfg := CfgRegs.initial n
  drv := { fc := n.zero, samplePeriod := n.zero, integralGain := n.zero, freqGain := n.zero, halfThr2 := 0 }
  osc := { acc := n.zero, tPeriod := n.zero, tPhase := n.zero, wc := 0 }
  loop := { errInt := n.zero, lockM := n.zero, qualM := n.zero }
  dec := { locked := false, prevSign := .zero, short := false }
  hi := []
  hq := []
  coef := []
  curI := 0
  curQ := 0
  life := .unconfigured
  cause := .none
  exitCode := 0
  numFault := false
  wcOvf := false
  recorded := none
  tlm := Telemetry.initial n
  ph := 0
  cmdReady := true
  loc := TickLocal.initial n
  cmds := []
  rst := false
  out := []

/-- The configuration registers after RESET, under the default numerics. -/
abbrev CfgRegs.reset : CfgRegs V := CfgRegs.initial F32.ieee32

/-- The telemetry registers after RESET, under the default numerics. -/
abbrev Telemetry.zero : Telemetry V := Telemetry.initial F32.ieee32

/-- No tick in progress, under the default numerics. -/
abbrev TickLocal.none : TickLocal V := TickLocal.initial F32.ieee32

/-- The state after RESET or power-on, under the default numerics. -/
def State.reset : State := State.initial F32.ieee32

end Sys2Proof.Machine
end

