-- ==== Sys2Proof/Machine/Ops.lean ====
section
/-! DEFINITION. The named operations over memory and state that the meanings share: memory accesses, sending on
an output port, the sequencer's moves, the entry of a fatal error and the reset that alone leaves it. -/

namespace Sys2Proof.Machine

variable {α : Type}

/-- What a step or a meaning answers. -/
abbrev Result (α : Type := V) := Host.Outcome (State α) Fault Refusal

/-- Run `f` on the next state of `r`; a stop stays a stop. The sequencing of R206. -/
def andThen (r : Result α) (f : State α → Result α) : Result α :=
  match r with
  | .next s => f s
  | .fault e => .fault e
  | .refused e => .refused e

/-! ### Memories -/

/-- `MemRead(S[a], 1)`: element `a` of a memory (R66). An unlisted element is `z`. -/
def Memory.get (z : α) : Memory α → Nat → α
  | [], _ => z
  | (b, w) :: t, a => if a = b then w else Memory.get z t a

/-- An element in front of a memory, which is not listed when it is `z`. -/
def Memory.cons [DecidableEq α] (z : α) (a : Nat) (v : α) (m : Memory α) : Memory α :=
  if v = z then m else (a, v) :: m

/-- `MemWrite(S[a], 1, v)`: replaces element `a` and no other (R66). -/
def Memory.put [DecidableEq α] (z : α) : Memory α → Nat → α → Memory α
  | [], a, v => Memory.cons z a v []
  | (b, w) :: t, a, v =>
    if a < b then Memory.cons z a v ((b, w) :: t)
    else if a = b then Memory.cons z a v t
    else (b, w) :: Memory.put z t a v

/-- Writes `ofNat 0` to the elements `0 .. n-1` (R47). -/
def Memory.clear (m : Memory α) (n : Nat) : Memory α := m.filter fun c => n ≤ c.1

/-- The canonical form: indices strictly rising and no listed element `z`. -/
abbrev Memory.canonical (z : α) (m : Memory α) : Prop :=
  m.Pairwise (fun c d => c.1 < d.1) ∧ ∀ c ∈ m, c.2 ≠ z

/-- `MemRead` under the default numerics. -/
abbrev Memory.read (m : Memory) (a : Nat) : V := m.get 0 a

/-- `MemWrite` under the default numerics. -/
abbrev Memory.write (m : Memory) (a : Nat) (v : V) : Memory := m.put 0 a v

/-- The canonical form under the default numerics: indices strictly rising and no listed element `+0`. -/
abbrev Memory.wf (m : Memory) : Prop := m.canonical 0

/-! ### Output ports and the sequencer -/

/-- Sends transfers on the output ports, in order (R90, R92, R93). -/
def State.send (s : State α) (os : List (Output α)) : State α := { s with out := s.out ++ os }

/-- `emit` of a list of events (R92). -/
def State.emit (s : State α) (es : List (Event α)) : State α := s.send (es.map .event)

/-- `ph <- ph + 1` (R24). -/
def State.advance (s : State α) : State α := { s with ph := s.ph + 1 }

/-- The block takes a TICK: it drops `cmd_ready` (R81), holds the operand for ACQ (R208) and has no fault
recorded of this command (R239). -/
def State.beginTick (s : State α) (data : BitVec 32) : State α :=
  { s with recorded := none, cmdReady := false, ph := 0, loc := { s.loc with data := data } }

/-- The TICK is complete: `ph <- 0` (R216), the tick-local values are gone (R32) and `cmd_ready` rises (R81). -/
def State.endTick (s : State α) (n : Num α) : State α :=
  { s with cmdReady := true, ph := 0, loc := TickLocal.initial n }

/-! ### The recorded fault (R239) -/

/-- The record of a command after a line that raises `k` if `raised` holds: inside one command the first fault in
pseudocode order is the one recorded (R239). -/
def firstFault (r : Option FaultKind) (raised : Bool) (k : FaultKind) : Option FaultKind :=
  r.or (if raised then some k else none)

/-- A command that can raise a fault begins: none is recorded of it yet. -/
def State.clearRecord (s : State α) : State α := { s with recorded := none }

/-- The fatal error a `CAUSE` names (R230). -/
def Cause.fault : Cause → Option FaultKind
  | .none => Option.none
  | .configurationError => some .configurationError
  | .streamError => some .streamError

/-! ### Lifecycle -/

/-- Entry of a fatal error (R240): `LIFE <- HALTED`, `CAUSE`, `EXIT <- EXIT_FAIL_CODE`, `PH` back to 0. There is
no handler and nothing is saved. It is recorded unless the command has recorded a fault before it (R239). -/
def State.raiseFatal (s : State α) (p : Impl α) (c : Cause) : State α :=
  { s with life := .halted, cause := c, exitCode := p.exitFailCode, recorded := s.recorded.or c.fault, ph := 0 }

/-- The only way on from a fatal error (R241): every register and memory takes its value of R46. The words
the host has yet to send and the transfers already made are not the block's to reset (log 11, 13). -/
def State.restart (s : State α) (n : Num α) : State α :=
  { State.initial n with cmds := s.cmds, rst := s.rst, out := s.out }

/-- A clean end (R218, R225): `LIFE <- HALTED`, `CAUSE` none, `EXIT <- 0`. -/
def State.finish (s : State α) : State α := { s with life := .halted, cause := .none, exitCode := 0 }

/-- The configuration registers replaced (R220). -/
def State.setCfg (s : State α) (c : CfgRegs α) : State α := { s with cfg := c }

/-- `FC` written, the first derived constant (R116). -/
def State.setFc (s : State α) (v : α) : State α := { s with drv := { s.drv with fc := v } }

/-! ### Level outputs -/

/-- The level output `halted` (R94). -/
def State.haltedPin (s : State α) : Bool := s.life == .halted

/-- The level output `exit_code[7:0]` (R94). -/
def State.exitCodePin (s : State α) : BitVec 8 := s.exitCode

/-- The level output `locked` (R94). -/
def State.lockedPin (s : State α) : Bool := s.dec.locked

end Sys2Proof.Machine
end

