-- ==== Sys2Proof/Machine/Flags.lean ====
section
/-! DEFINITION. The flag computations: the signs of the discriminator and the decoder, and the sticky flags
`NUMFAULT` (R11, R41) and `WCOVF` (R42). No operation sets a condition code (R34). -/

namespace Sys2Proof.Machine

variable {α : Type}

/-- `sgn2`: `+1` if `v > 0`, else `-1` (`00_scope.md` section 7). -/
def sgn2 (n : Num α) (v : α) : Sign := if n.fgt v n.zero then .pos else .neg

/-- `sgn3z`: the discriminator's sign, with `z` for a value that is neither above nor below zero (R151). -/
def sgn3z (n : Num α) (z : Sign) (v : α) : Sign :=
  if n.fgt v n.zero then .pos else if n.fgt n.zero v then .neg else z

/-- `fsgnmul`: `v`, its negation or `ofNat 0` (`00_scope.md` section 7). -/
def fsgnmul (n : Num α) (s : Sign) (v : α) : α :=
  match s with
  | .pos => v
  | .neg => n.fneg v
  | .zero => n.zero

/-- Whether a list of values holds one that is not finite. -/
def anyNonFinite (n : Num α) (vs : List α) : Bool := vs.any fun v => !n.finite v

/-- Whether a line that divides by `divisors` and produces `made` raises NumericFault (R11, R41). -/
def raisesNumeric (n : Num α) (divisors made : List α) : Bool :=
  divisors.any (fun d => n.feq d n.zero) || anyNonFinite n made

/-- `NumericFault` where `raised` holds (R11, R41): `NUMFAULT` is set and stays set, and the fault is recorded if it is
the command's first (R239). The block carries on (R235, log 4). -/
def State.noteIf (s : State α) (raised : Bool) : State α :=
  { s with
    numFault := s.numFault || raised
    recorded := firstFault s.recorded raised .numericFault }

/-- `NumericFault` of a line that divides by `divisors` and produces `made`. -/
def State.note (s : State α) (n : Num α) (divisors made : List α) : State α :=
  s.noteIf (raisesNumeric n divisors made)

/-- `CounterOverflow` where `raised` holds (R42, R236): `WCOVF` is set and stays set, and the fault is recorded if it is the
command's first (R239). The counter is held and the block carries on (log 5). -/
def State.noteOverflow (s : State α) (raised : Bool) : State α :=
  { s with
    wcOvf := s.wcOvf || raised
    recorded := firstFault s.recorded raised .counterOverflow }

/-- A wave counter of `bits` bits at its greatest value (R23); an unbounded one has none. -/
def wcFull (bits : Option Nat) (wc : Nat) : Bool :=
  match bits with
  | none => false
  | some b => decide (2 ^ b - 1 ≤ wc)

/-- `WC` after NCO.STEP: one more on a wrap, held at its greatest value (R132, R236, log 5). -/
def wcNext (bits : Option Nat) (wrapped : Bool) (wc : Nat) : Nat :=
  if wrapped && !wcFull bits wc then wc + 1 else wc

/-- Whether NCO.STEP would pass the counter's greatest value (R42, R236). -/
def wcPasses (bits : Option Nat) (wrapped : Bool) (wc : Nat) : Bool := wrapped && wcFull bits wc

end Sys2Proof.Machine
end

