-- ==== Sys2Proof/Machine/Operands.lean ====
section
/-! DEFINITION. Every operand form: the sample (R85, R64), the fields of `MODE` (R37), the CSR space (R35 to R43)
and the images of the events and the telemetry record on their ports (R92, R93). -/

namespace Sys2Proof.Machine

variable {α : Type}

/-! ### The sample -/

/-- `x = ofSample(data)` (R85, R208). -/
def sampleOperand (n : Num α) (data : BitVec 32) : α := n.ofSample data

/-- The adapter outside the core that makes the TICK operand of four bytes of the stream, the first byte
first (R64). -/
def assembleSample (order : Config.ByteOrder) (b0 b1 b2 b3 : BitVec 8) : BitVec 32 :=
  match order with
  | .little => b3 ++ b2 ++ b1 ++ b0
  | .big => b0 ++ b1 ++ b2 ++ b3

/-! ### The fields of `MODE` (R37) -/

/-- Bit 0 `QUALITY_MODE`: true is `SUM`. -/
def qualitySum (m : Image) : Bool := m.getLsbD 0

/-- Bits 2:1 `DISC_SIGN_ZERO`; `none` is the reserved value. -/
def discSignZero (m : Image) : Option Sign :=
  match (m.extractLsb' 1 2).toNat with
  | 0 => some .neg
  | 1 => some .zero
  | 2 => some .pos
  | _ => none

/-- Bits 4:3 `PREV_SIGN_RESET`; `none` is the reserved value. -/
def prevSignReset (m : Image) : Option Sign :=
  match (m.extractLsb' 3 2).toNat with
  | 0 => some .zero
  | 1 => some .pos
  | 3 => some .neg
  | _ => none

/-- Bit 5 `DISC_MODE`: true is reserved. -/
def discMode (m : Image) : Bool := m.getLsbD 5

/-- Bits 7:6 `WRAP_POLICY`: all but 0 are reserved. -/
def wrapPolicy (m : Image) : BitVec 2 := m.extractLsb' 6 2

/-- Bits 31:8, which must be written 0. -/
def modeReserved (m : Image) : BitVec 24 := m.extractLsb' 8 24

/-- No reserved field of `MODE` is set and no reserved value selected (R37, R266). -/
def modeLegal (m : Image) : Bool :=
  (discSignZero m).isSome && (prevSignReset m).isSome && !discMode m && wrapPolicy m == 0
    && modeReserved m == 0

/-- `DISC_SIGN_ZERO`, where the loop filter's selectors hold the values the spec defines (R151, R155, R158). -/
def loopMode (m : Image) : Option Sign :=
  if discMode m || wrapPolicy m != 0 then none else discSignZero m

/-! ### The CSR space -/

/-- A sign in two's complement (R39). -/
def Sign.image : Sign → BitVec 2
  | .zero => 0b00
  | .pos => 0b01
  | .neg => 0b11

/-- `LIFE` as a number (R39). -/
def Life.image : Life → BitVec 2
  | .unconfigured => 0
  | .running => 1
  | .halted => 2

/-- `CAUSE` as a number (R39, R230). -/
def Cause.image : Cause → Image
  | .none => 0
  | .configurationError => 1
  | .streamError => 2

/-- `STATUS` (R39), bit 31 first. -/
def State.status (s : State α) : Image :=
  (0 : BitVec 24) ++ BitVec.ofBool s.wcOvf ++ BitVec.ofBool s.numFault ++ s.dec.prevSign.image
    ++ BitVec.ofBool s.dec.short ++ BitVec.ofBool s.dec.locked ++ s.life.image

/-- `CSR[idx]` (R35 to R43); a reserved number reads 0. -/
def State.csr (s : State α) (idx : CsrIndex) : CsrValue α :=
  match idx.toNat with
  | 0x00 => .word s.cfg.nTaps
  | 0x01 => .value s.cfg.sampleRate
  | 0x02 => .value s.cfg.cutoff
  | 0x03 => .value s.cfg.refPeriod
  | 0x04 => .value s.cfg.phaseGain
  | 0x05 => .word s.cfg.cycPerClock
  | 0x06 => .word s.cfg.cycPerBit
  | 0x07 => .value s.cfg.lockThr
  | 0x08 => .value s.cfg.ampThr
  | 0x09 => .value s.cfg.kiFactor
  | 0x0A => .value s.cfg.kfFactor
  | 0x0B => .word s.cfg.mode
  | 0x0C => .value s.cfg.tPeriodInit
  | 0x0D => .value s.cfg.tPhaseInit
  | 0x10 => .value s.drv.fc
  | 0x11 => .value s.drv.samplePeriod
  | 0x12 => .value s.drv.integralGain
  | 0x13 => .value s.drv.freqGain
  | 0x14 => .word (BitVec.ofNat 32 s.drv.halfThr2)
  | 0x20 => .word s.status
  | 0x21 => .word s.cause.image
  | 0x22 => .word (s.exitCode.setWidth 32)
  | 0x30 => .value s.osc.acc
  | 0x31 => .value s.osc.tPeriod
  | 0x32 => .value s.osc.tPhase
  | 0x33 => .word (BitVec.ofNat 32 s.osc.wc)
  | 0x34 => .value s.loop.errInt
  | 0x35 => .value s.loop.lockM
  | 0x36 => .value s.loop.qualM
  | 0x37 => .word (BitVec.ofNat 32 s.curI)
  | 0x38 => .word (BitVec.ofNat 32 s.curQ)
  | 0x40 => .value s.tlm.tPeriod
  | 0x41 => .value s.tlm.tPhase
  | 0x42 => .value s.tlm.sample
  | 0x43 => .value s.tlm.i
  | 0x44 => .value s.tlm.q
  | 0x45 => .value s.tlm.lock
  | 0x46 => .value s.tlm.qual
  | 0x47 => .value s.tlm.sI
  | 0x48 => .value s.tlm.sQ
  | 0x49 => .value s.tlm.err
  | 0x4A => .value s.tlm.errInt
  | 0x4B => .value s.tlm.errC
  | _ => .word 0

/-- The 32-bit image of what a location carries, which the response port shows (R35, R90). -/
def CsrValue.image : CsrValue V → Image
  | .value v => v
  | .word w => w

/-- `CSR[idx]` as its 32-bit image. -/
def State.csrRead (s : State) (idx : CsrIndex) : Image := (s.csr idx).image

/-- `CSR[idx] <- data` where `idx` names a configuration register (R36, R220); otherwise nothing. A register of type
`V` takes the pattern embedded by `ofSample` (R85). -/
def CfgRegs.write (c : CfgRegs α) (n : Num α) (idx : CsrIndex) (data : Image) : CfgRegs α :=
  match idx.toNat with
  | 0x00 => { c with nTaps := data }
  | 0x01 => { c with sampleRate := n.ofSample data }
  | 0x02 => { c with cutoff := n.ofSample data }
  | 0x03 => { c with refPeriod := n.ofSample data }
  | 0x04 => { c with phaseGain := n.ofSample data }
  | 0x05 => { c with cycPerClock := data }
  | 0x06 => { c with cycPerBit := data }
  | 0x07 => { c with lockThr := n.ofSample data }
  | 0x08 => { c with ampThr := n.ofSample data }
  | 0x09 => { c with kiFactor := n.ofSample data }
  | 0x0A => { c with kfFactor := n.ofSample data }
  | 0x0B => { c with mode := data }
  | 0x0C => { c with tPeriodInit := n.ofSample data }
  | 0x0D => { c with tPhaseInit := n.ofSample data }
  | _ => c

/-! ### Well-formed configurations (R266) -/

/-- The configuration values of type `V`. -/
def CfgRegs.values (c : CfgRegs α) : List α :=
  [c.sampleRate, c.cutoff, c.refPeriod, c.phaseGain, c.lockThr, c.ampThr, c.kiFactor, c.kfFactor,
    c.tPeriodInit, c.tPhaseInit]

/-- `1 <= N_TAPS <= N_MAX` and `N_TAPS < 2^24` (R266, log 7). -/
def tapsLegal (nMax : Option Nat) (n : Nat) : Bool :=
  decide (1 ≤ n) && decide (n < 2 ^ 24) && (match nMax with | none => true | some d => decide (n ≤ d))

/-- `CYC_PER_CLOCK + CYC_PER_BIT`, over the naturals (R4). -/
def CfgRegs.cycSum (c : CfgRegs α) : Nat := c.cycPerClock.toNat + c.cycPerBit.toNat

/-- The conditions of R266, with the two divisors `SAMPLE_RATE` and `REF_PERIOD` allowed to be zero: R11 says
what the block does then (log 8). -/
def CfgRegs.runnable (c : CfgRegs α) (p : Impl α) : Bool :=
  tapsLegal p.nMax c.nTaps.toNat && c.values.all p.num.finite && p.num.fge c.sampleRate p.num.zero
    && p.num.fge c.refPeriod p.num.zero && !p.num.feq c.tPeriodInit p.num.zero && p.num.fge c.ampThr p.num.zero
    && decide (c.cycSum < 2 ^ 32) && modeLegal c.mode

/-- A well-formed configuration (R266). -/
def CfgRegs.wellFormed (c : CfgRegs α) (p : Impl α) : Bool :=
  c.runnable p && p.num.fgt c.sampleRate p.num.zero && p.num.fgt c.refPeriod p.num.zero

/-! ### Images on the output ports -/

/-- `ev_code` (R92). -/
def Event.code : Event α → BitVec 3
  | .lockAcq => 1
  | .lockLost _ => 2
  | .bit _ => 3
  | .anomaly => 4

/-- `ev_data` (R92). -/
def Event.data : Event V → BitVec 32
  | .lockAcq => 0
  | .lockLost lockm => lockm
  | .bit b => (BitVec.ofBool b).setWidth 32
  | .anomaly => 0

/-- `{ev_code[2:0], ev_data[31:0]}` (R92). -/
def Event.word (e : Event V) : BitVec 35 := e.code ++ e.data

/-- The record as a 384-bit word: `T_TPERIOD` is bits 383:352 and `T_ERRC` bits 31:0 (R93). -/
def Telemetry.word (t : Telemetry V) : BitVec 384 :=
  t.tPeriod ++ t.tPhase ++ t.sample ++ t.i ++ t.q ++ t.lock ++ t.qual ++ t.sI ++ t.sQ ++ t.err ++ t.errInt
    ++ t.errC

end Sys2Proof.Machine
end

