-- ==== Sys2Proof/Machine/HostCommands.lean ====
section
/-! DEFINITION. The host commands RESET, CFGW, CSRR, EOS and SERR (`45_tick_and_commands.md`). A command in a
lifecycle state that does not admit it (R247) is ignored, as the hardware does (U11, D22, log 6). Here and in the other
meanings, `Impl.<op>` is the operation over any implementation and `exec<Op>` the one on the default. -/

namespace Sys2Proof.Machine

variable {α : Type}

/-- RESET (R222): admitted always; every register and memory takes its value of R46. -/
def Impl.reset (p : Impl α) (s : State α) : Result α := .next (s.restart p.num)

/-- CFGW (R220): admitted while UNCONFIGURED; writes a configuration register. -/
def Impl.cfgw (p : Impl α) (idx : CsrIndex) (data : BitVec 32) (s : State α) : Result α :=
  .next (if s.life = .unconfigured then s.setCfg (s.cfg.write p.num idx data) else s)

/-- CSRR (R221): admitted always; answers on the response port and changes nothing. -/
def csrr (idx : CsrIndex) (s : State α) : Result α := .next (s.send [.response (s.csr idx)])

/-- EOS (R218): admitted while RUNNING; a clean end. -/
def eos (s : State α) : Result α := .next (if s.life = .running then s.finish else s)

/-- SERR (R219): admitted while RUNNING; raises StreamError (R232), the one fault of the command. -/
def Impl.serr (p : Impl α) (s : State α) : Result α :=
  .next (if s.life = .running then s.clearRecord.raiseFatal p .streamError else s)

/-- RESET on the default implementation. -/
def execReset (s : State) : Host.Outcome State Fault Refusal := Impl.ieee32.reset s

/-- CFGW on the default implementation. -/
def execCfgw (idx : CsrIndex) (data : BitVec 32) (s : State) : Host.Outcome State Fault Refusal :=
  Impl.ieee32.cfgw idx data s

/-- CSRR on the default implementation. -/
def execCsrr (idx : CsrIndex) (s : State) : Host.Outcome State Fault Refusal := csrr idx s

/-- EOS on the default implementation. -/
def execEos (s : State) : Host.Outcome State Fault Refusal := eos s

/-- SERR on the default implementation. -/
def execSerr (s : State) : Host.Outcome State Fault Refusal := Impl.ieee32.serr s

end Sys2Proof.Machine
end

