-- ==== Sys2Proof/Machine/BitDecoder.lean ====
section
/-! DEFINITION. The bit-timing decoder (`44_bit_decoder.md`): DEC.STEP. -/

namespace Sys2Proof.Machine

variable {α : Type}

/-- A tick that the decoder acts on: locked, and `|S_I|` strictly above the amplitude threshold (R186, R187). -/
def qualifies (n : Num α) (locked : Bool) (ampThr sI : α) : Bool :=
  locked && n.fgt (n.fabs sI) ampThr

/-- A long interval: `2 * w > HALF_THR2`, over the naturals (R190). -/
def isLong (w halfThr2 : Nat) : Bool := decide (halfThr2 < 2 * w)

/-- `SHORT` after a transition and the events in order, from `SHORT` before and whether the interval was long
(R191, R192, the table of R194). -/
def decodeInterval (short long : Bool) : Bool × List (Event α) :=
  match short, long with
  | false, false => (true, [])
  | true, false => (false, [.bit false])
  | false, true => (false, [.bit true])
  | true, true => (false, [.bit true, .anomaly])

/-- A transition (R188): consume the wave counter (R189), decode the interval, record the sign (R193). -/
def State.transition (s : State α) (sign : Sign) : State α :=
  let r := decodeInterval s.dec.short (isLong s.osc.wc s.drv.halfThr2)
  { s with
    osc := { s.osc with wc := 0 }
    dec := { s.dec with short := r.1, prevSign := sign } }.emit r.2

/-- DEC.STEP (R185). -/
def Impl.decStep (p : Impl α) (s : State α) : Result α :=
  .next
    (if qualifies p.num s.dec.locked s.cfg.ampThr s.loc.sI then
      (if sgn2 p.num s.loc.sI = s.dec.prevSign then s else s.transition (sgn2 p.num s.loc.sI)).advance
    else s.advance)

/-- DEC.STEP on the default implementation. -/
def execDecStep (s : State) : Host.Outcome State Fault Refusal := Impl.ieee32.decStep s

end Sys2Proof.Machine
end

