-- ==== Sys2Proof/Machine/Fir.lean ====
section
/-! DEFINITION. The FIR low-pass filter and its coefficient design (`40_fir.md`): DESIGN, FIR.I, FIR.Q. -/

namespace Sys2Proof.Machine

variable {α : Type}

/-! ### The formulas, over any numerics -/

/-- The sum of R111 over coefficient indices `0 .. k-1`, from `ofNat 0` upward, and whether every product and
partial sum is finite. Index `k` pairs with the history element of age `k`, `H[(CUR - k) mod N]` (R112). -/
def firTaps (n : Num α) (coef hist : Nat → α) (len cur : Nat) : Nat → α × Bool
  | 0 => (n.zero, true)
  | k + 1 =>
    match firTaps n coef hist len cur k with
    | (sum, ok) =>
      let p := n.fmul (coef k) (hist ((cur + len - k) % len))
      (n.fadd sum p, ok && n.finite p && n.finite (n.fadd sum p))

/-- `FC = fdiv(fmul(2, CUTOFF), SAMPLE_RATE)` (R4, R114). -/
def normalizedCutoff (n : Num α) (cutoff sampleRate : α) : α :=
  n.fdiv (n.fmul (n.ofNat 2) cutoff) sampleRate

/-- `d_i = fsub(ofNat i, D1)`, with `D1` the exact half of `N-1` (R114, R118). -/
def tapOffset (n : Num α) (len i : Nat) : α :=
  n.fsub (n.ofNat i) (n.fdiv (n.ofNat (len - 1)) (n.ofNat 2))

/-- `COEF[i]` (R114): no window (R115). -/
def coefficient (n : Num α) (fc : α) (len i : Nat) : α :=
  if 2 * i + 1 = len then fc
  else
    n.fdiv (n.fsin (n.fmul (n.fmul fc n.pi) (tapOffset n len i))) (n.fmul n.pi (tapOffset n len i))

/-- The values made on the way to `COEF[i]`, for `NUMFAULT` (R11). -/
def coefficientMade (n : Num α) (fc : α) (len i : Nat) : List α :=
  if 2 * i + 1 = len then [fc]
  else
    [tapOffset n len i, n.fmul fc n.pi, n.fmul (n.fmul fc n.pi) (tapOffset n len i),
      n.fsin (n.fmul (n.fmul fc n.pi) (tapOffset n len i)), n.fmul n.pi (tapOffset n len i),
      coefficient n fc len i]

/-- `INTEGRAL_GAIN = fdiv(fmul(KI_FACTOR, PHASE_GAIN), REF_PERIOD)` (R4). -/
def integralGainOf (n : Num α) (kiFactor phaseGain refPeriod : α) : α :=
  n.fdiv (n.fmul kiFactor phaseGain) refPeriod

/-- `FREQ_GAIN = fmul(fmul(PHASE_GAIN, PHASE_GAIN), KF_FACTOR)` (R4). -/
def freqGainOf (n : Num α) (phaseGain kfFactor : α) : α :=
  n.fmul (n.fmul phaseGain phaseGain) kfFactor

/-- `SAMPLE_PERIOD = fdiv(1, SAMPLE_RATE)` (R4). -/
def samplePeriodOf (n : Num α) (sampleRate : α) : α := n.fdiv (n.ofNat 1) sampleRate

/-! ### DESIGN -/

/-- `FC` of the configuration registers. -/
def CfgRegs.fc (c : CfgRegs α) (n : Num α) : α := normalizedCutoff n c.cutoff c.sampleRate

/-- The derived constants of a configuration (R4). -/
def CfgRegs.derived (c : CfgRegs α) (n : Num α) : Derived α where
  fc := c.fc n
  samplePeriod := samplePeriodOf n c.sampleRate
  integralGain := integralGainOf n c.kiFactor c.phaseGain c.refPeriod
  freqGain := freqGainOf n c.phaseGain c.kfFactor
  halfThr2 := c.cycSum

/-- The values made on the way to `FC`, for `NUMFAULT` (R11). -/
def CfgRegs.fcMade (c : CfgRegs α) (n : Num α) : List α := [n.fmul (n.ofNat 2) c.cutoff, c.fc n]

/-- The values DESIGN makes after the Nyquist test, for `NUMFAULT` (R11, R116). -/
def CfgRegs.designMade (c : CfgRegs α) (n : Num α) : List α :=
  [(c.derived n).samplePeriod, n.fmul c.kiFactor c.phaseGain, (c.derived n).integralGain,
    n.fmul c.phaseGain c.phaseGain, (c.derived n).freqGain]
    ++ (List.range c.nTaps.toNat).flatMap (coefficientMade n (c.fc n) c.nTaps.toNat)

/-- `MemWrite(COEF[i], 1, <R114>)` for `i = 0 .. k-1`, in that order (R116). -/
def writeCoefs [DecidableEq α] (n : Num α) (fc : α) (len : Nat) (m : Memory α) : Nat → Memory α
  | 0 => m
  | k + 1 => (writeCoefs n fc len m k).put n.zero k (coefficient n fc len k)

/-- The state objects are created (R47) and the block runs. -/
def State.launch [DecidableEq α] (s : State α) (n : Num α) : State α :=
  { s with
    drv := s.cfg.derived n
    osc := { acc := n.zero, tPeriod := s.cfg.tPeriodInit, tPhase := s.cfg.tPhaseInit, wc := 0 }
    loop := { errInt := n.zero, lockM := n.zero, qualM := n.zero }
    dec := { locked := false, prevSign := (prevSignReset s.cfg.mode).getD .zero, short := false }
    hi := s.hi.clear s.cfg.nTaps.toNat
    hq := s.hq.clear s.cfg.nTaps.toNat
    coef := writeCoefs n (s.cfg.fc n) s.cfg.nTaps.toNat s.coef s.cfg.nTaps.toNat
    curI := 0
    curQ := 0
    tlm := Telemetry.initial n
    life := .running }

/-- DESIGN (R116): admitted while UNCONFIGURED (else ignored, log 6). `FC` comes first and a value of 1 or more
raises ConfigurationError before anything else is looked at (R117, R231, R239). A configuration that is not
well-formed has no meaning (R266, R247); a zero `SAMPLE_RATE` or `REF_PERIOD` is a division by zero, on which
the block carries on (R11, log 8). Of the faults it raises the first is recorded, so an `FC` that is not finite is
recorded as NumericFault, before the Nyquist test (R239). -/
def Impl.design [DecidableEq α] (p : Impl α) (s : State α) : Result α :=
  if s.life ≠ .unconfigured then .next s
  else if p.num.fge (s.cfg.fc p.num) (p.num.ofNat 1) then
    .next
      (((s.clearRecord.setFc (s.cfg.fc p.num)).note p.num [s.cfg.sampleRate] (s.cfg.fcMade p.num)).raiseFatal p
        .configurationError)
  else if s.cfg.runnable p then
    .next
      ((s.clearRecord.launch p.num).note p.num [s.cfg.sampleRate, s.cfg.refPeriod]
        (s.cfg.fcMade p.num ++ s.cfg.designMade p.num))
  else .refused .illFormedConfig

/-- DESIGN on the default implementation. -/
def execDesign (s : State) : Host.Outcome State Fault Refusal := Impl.ieee32.design s

/-! ### FIR.I and FIR.Q -/

/-- What one filter call gives: history, cursor, output, and whether every value made was finite. -/
structure FirOut (α : Type) where
  hist : Memory α
  cur : Nat
  y : α
  ok : Bool
deriving DecidableEq, Repr

/-- The pseudocode `FIR(u, H, CUR) -> y` of R111: write the input over the oldest entry, sum, advance the
cursor. -/
def fir [DecidableEq α] (n : Num α) (coef hist : Memory α) (len cur : Nat) (u : α) : FirOut α :=
  let h := hist.put n.zero cur u
  { hist := h
    cur := (cur + 1) % len
    y := (firTaps n (coef.get n.zero) (h.get n.zero) len cur len).1
    ok := (firTaps n (coef.get n.zero) (h.get n.zero) len cur len).2 }

/-- The state FIR.I leaves (R111). -/
def State.afterFirI [DecidableEq α] (s : State α) (n : Num α) : State α :=
  let r := fir n s.coef s.hi s.cfg.nTaps.toNat s.curI s.loc.mI
  ({ s with
    hi := r.hist
    curI := r.cur
    loc := { s.loc with sI := r.y } }.noteIf (!r.ok)).advance

/-- The state FIR.Q leaves (R113). -/
def State.afterFirQ [DecidableEq α] (s : State α) (n : Num α) : State α :=
  let r := fir n s.coef s.hq s.cfg.nTaps.toNat s.curQ s.loc.mQ
  ({ s with
    hq := r.hist
    curQ := r.cur
    loc := { s.loc with sQ := r.y } }.noteIf (!r.ok)).advance

/-- FIR.I (R111). A cursor outside `0 .. N-1` names no element (R74, log 14). -/
def Impl.firI [DecidableEq α] (p : Impl α) (s : State α) : Result α :=
  if s.curI < s.cfg.nTaps.toNat then .next (s.afterFirI p.num) else .fault .historyIndex

/-- FIR.Q (R113): the same filter on its own history and cursor. -/
def Impl.firQ [DecidableEq α] (p : Impl α) (s : State α) : Result α :=
  if s.curQ < s.cfg.nTaps.toNat then .next (s.afterFirQ p.num) else .fault .historyIndex

/-- FIR.I on the default implementation. -/
def execFirI (s : State) : Host.Outcome State Fault Refusal := Impl.ieee32.firI s

/-- FIR.Q on the default implementation. -/
def execFirQ (s : State) : Host.Outcome State Fault Refusal := Impl.ieee32.firQ s

end Sys2Proof.Machine
end

