-- ==== Sys2Proof/Machine/LockDetector.lean ====
section
/-! DEFINITION. The lock detector (`43_lock_detector.md`): LOCK.EVAL. -/

namespace Sys2Proof.Machine

variable {α : Type}

/-- What the lock detector computes, and the values made on the way (R11). -/
structure LockOut (α : Type) where
  lockM : α
  qualM : α
  locked : Bool
  made : List α

/-- The lock metric (R171), the quality metric under the selected formula (R172) and the locked state (R173). -/
def lockMetrics (n : Num α) (sum : Bool) (thr sI sQ : α) : LockOut α :=
  let si2 := n.fmul sI sI
  let sq2 := n.fmul sQ sQ
  let lockM := n.fsub si2 sq2
  let qualM := if sum then n.fadd si2 sq2 else lockM
  { lockM := lockM
    qualM := qualM
    locked := n.fgt lockM thr
    made := [si2, sq2, lockM, qualM] }

/-- The event of a change of the locked state, and none without a change (R174). -/
def lockEvents (old new : Bool) (lockM : α) : List (Event α) :=
  match old, new with
  | false, true => [.lockAcq]
  | true, false => [.lockLost lockM]
  | false, false => []
  | true, true => []

/-- LOCK.EVAL (R170). Losing lock is no fault and touches no decoder register (R176). -/
def Impl.lockEval (p : Impl α) (s : State α) : Result α :=
  let r := lockMetrics p.num (qualitySum s.cfg.mode) s.cfg.lockThr s.loc.sI s.loc.sQ
  .next
    ((({ s with
        loop := { s.loop with lockM := r.lockM, qualM := r.qualM }
        dec := { s.dec with locked := r.locked } }.note p.num [] r.made).emit
          (lockEvents s.dec.locked r.locked r.lockM)).advance)

/-- LOCK.EVAL on the default implementation. -/
def execLockEval (s : State) : Host.Outcome State Fault Refusal := Impl.ieee32.lockEval s

end Sys2Proof.Machine
end

