-- ==== Sys2Proof/Machine/LoopFilter.lean ====
section
/-! DEFINITION. The Costas discriminator and PI loop filter (`42_loop_filter.md`): LOOP.UPDATE. -/

namespace Sys2Proof.Machine

variable {α : Type}

/-- The constants the loop filter reads (R150). -/
structure LoopGains (α : Type) where
  samplePeriod : α
  integralGain : α
  phaseGain : α
  freqGain : α

/-- What the loop filter gives, and the values made on the way (R11). -/
structure LoopOut (α : Type) where
  err : α
  errInt : α
  errC : α
  tPhase : α
  tPeriod : α
  made : List α

/-- The loop filter (R150), line by line: discriminator (R151), integral (R152), correction from the new
integral (R153), feedback (R154). Nothing is clamped or wrapped (R155). -/
def loopFilter (n : Num α) (g : LoopGains α) (z : Sign) (sI sQ errInt tPhase tPeriod : α) :
    LoopOut α :=
  let err := fsgnmul n (sgn3z n z sI) sQ
  let errInt' := n.fadd errInt (n.fmul err g.samplePeriod)
  let errC := n.fadd err (n.fmul errInt' g.integralGain)
  let tPhase' := n.fadd tPhase (n.fmul g.phaseGain errC)
  let tPeriod' := n.fsub tPeriod (n.fmul g.freqGain errC)
  { err := err
    errInt := errInt'
    errC := errC
    tPhase := tPhase'
    tPeriod := tPeriod'
    made :=
      [err, n.fmul err g.samplePeriod, errInt', n.fmul errInt' g.integralGain, errC, n.fmul g.phaseGain errC,
        tPhase', n.fmul g.freqGain errC, tPeriod'] }

/-- The loop filter's constants in the registers. -/
def State.gains (s : State α) : LoopGains α where
  samplePeriod := s.drv.samplePeriod
  integralGain := s.drv.integralGain
  phaseGain := s.cfg.phaseGain
  freqGain := s.drv.freqGain

/-- LOOP.UPDATE (R150). The reserved selectors of `MODE` have no formula (R37, R155, R158, log 15). -/
def Impl.loopUpdate (p : Impl α) (s : State α) : Result α :=
  match loopMode s.cfg.mode with
  | none => .refused .reservedMode
  | some z =>
    let r := loopFilter p.num s.gains z s.loc.sI s.loc.sQ s.loop.errInt s.osc.tPhase s.osc.tPeriod
    .next
      (({ s with
          osc := { s.osc with tPhase := r.tPhase, tPeriod := r.tPeriod }
          loop := { s.loop with errInt := r.errInt }
          loc := { s.loc with err := r.err, errC := r.errC } }.note p.num [] r.made).advance)

/-- LOOP.UPDATE on the default implementation. -/
def execLoopUpdate (s : State) : Host.Outcome State Fault Refusal := Impl.ieee32.loopUpdate s

end Sys2Proof.Machine
end

