-- ==== Sys2Proof/Machine/Nco.lean ====
section
/-! DEFINITION. The reference oscillator and the mixer (`41_nco_mixer.md`): NCO.STEP, MIX. -/

namespace Sys2Proof.Machine

variable {α : Type}

/-- What one step of the oscillator gives: the new accumulator, whether it wrapped, the two references, and
the values made up to the wrap and after it (R11, R239). -/
structure NcoOut (α : Type) where
  acc : α
  wrapped : Bool
  i : α
  q : α
  toWrap : List α
  afterWrap : List α

/-- `inc = fdiv(fmul(SAMPLE_PERIOD, TWO_PI), TPERIOD)` (R136). -/
def phaseIncrement (n : Num α) (samplePeriod tPeriod : α) : α :=
  n.fdiv (n.fmul samplePeriod n.twoPi) tPeriod

/-- The oscillator's step (R130): advance, one strict test against `TWO_PI` and at most one subtraction (R131),
then the references from the new accumulator (R133). The tracked phase enters their argument only (R134). -/
def ncoAdvance (n : Num α) (samplePeriod tPeriod tPhase acc : α) : NcoOut α :=
  let inc := phaseIncrement n samplePeriod tPeriod
  let a := n.fadd acc inc
  let wrapped := n.fgt a n.twoPi
  let a' := if wrapped then n.fsub a n.twoPi else a
  let th := n.fadd a' tPhase
  { acc := a'
    wrapped := wrapped
    i := n.fcos th
    q := n.fneg (n.fsin th)
    toWrap := [n.fmul samplePeriod n.twoPi, inc, a, a']
    afterWrap := [th, n.fcos th, n.fsin th, n.fneg (n.fsin th)] }

/-- NCO.STEP (R130). On a wrap `WC` gains one (R132); at its greatest value it stays and `WCOVF` is set
(R236, log 5). A zero `TPERIOD` is a division by zero (R135). Of its faults the first in pseudocode order is recorded: the
division and the values up to the wrap, then CounterOverflow, then the values after it (R239). DESIGN CHOICE (log 25):
where it raises both, both sticky flags are set. -/
def Impl.ncoStep (p : Impl α) (s : State α) : Result α :=
  let r := ncoAdvance p.num s.drv.samplePeriod s.osc.tPeriod s.osc.tPhase s.osc.acc
  .next
    (((({ s with
        osc := { s.osc with acc := r.acc, wc := wcNext p.wcBits r.wrapped s.osc.wc }
        loc := { s.loc with i := r.i, q := r.q } }.note p.num [s.osc.tPeriod] r.toWrap).noteOverflow
          (wcPasses p.wcBits r.wrapped s.osc.wc)).note p.num [] r.afterWrap).advance)

/-- MIX (R137): the sample times each reference. -/
def Impl.mix (p : Impl α) (s : State α) : Result α :=
  let mI := p.num.fmul s.loc.x s.loc.i
  let mQ := p.num.fmul s.loc.x s.loc.q
  .next (({ s with loc := { s.loc with mI := mI, mQ := mQ } }.note p.num [] [mI, mQ]).advance)

/-- NCO.STEP on the default implementation; both flags on both faults (DESIGN CHOICE, log 25), the first recorded (R239). -/
def execNcoStep (s : State) : Host.Outcome State Fault Refusal := Impl.ieee32.ncoStep s

/-- MIX on the default implementation. -/
def execMix (s : State) : Host.Outcome State Fault Refusal := Impl.ieee32.mix s

end Sys2Proof.Machine
end

