-- ==== Sys2Proof/Machine/Tick.lean ====
section
/-! DEFINITION. The tick (`45_tick_and_commands.md`): ACQ, TLM.EMIT, and TICK, which runs the nine
micro-operations in their fixed order as one step (R6, R206, R207). -/

namespace Sys2Proof.Machine

variable {α : Type}

/-- ACQ (R208): `x <- ofSample(data)`, `ph <- 1`. Where `ofSample` is undefined, which no pattern is under
`NUM_IEEE32`, that is a NumericFault (log 4); there a NaN or infinite sample shows at MIX. -/
def Impl.acq (p : Impl α) (s : State α) : Result α :=
  .next
    ({ s with loc := { s.loc with x := sampleOperand p.num s.loc.data }, ph := 1 }.noteIf
      (!p.sampleDefined s.loc.data))

/-- The record of R216, of the values at the end of the tick. -/
def State.record (s : State α) : Telemetry α where
  tPeriod := s.osc.tPeriod
  tPhase := s.osc.tPhase
  sample := s.loc.x
  i := s.loc.i
  q := s.loc.q
  lock := s.loop.lockM
  qual := s.loop.qualM
  sI := s.loc.sI
  sQ := s.loc.sQ
  err := s.loc.err
  errInt := s.loop.errInt
  errC := s.loc.errC

/-- TLM.EMIT (R216): latch the record, send it, and end the tick. -/
def Impl.tlmEmit (p : Impl α) (s : State α) : Result α :=
  .next (({ s with tlm := s.record }.send [.telemetry s.record]).endTick p.num)

/-- The nine micro-operations in the order of R207. -/
def Impl.runTick [DecidableEq α] (p : Impl α) (s : State α) : Result α :=
  andThen (p.acq s) fun s =>
  andThen (p.ncoStep s) fun s =>
  andThen (p.mix s) fun s =>
  andThen (p.firI s) fun s =>
  andThen (p.firQ s) fun s =>
  andThen (p.loopUpdate s) fun s =>
  andThen (p.lockEval s) fun s =>
  andThen (p.decStep s) p.tlmEmit

/-- TICK (R206): admitted while RUNNING, else ignored (R247, log 6). -/
def Impl.tick [DecidableEq α] (p : Impl α) (data : BitVec 32) (s : State α) : Result α :=
  if s.life = .running then p.runTick (s.beginTick data) else .next s

/-- ACQ on the default implementation. -/
def execAcq (s : State) : Host.Outcome State Fault Refusal := Impl.ieee32.acq s

/-- TLM.EMIT on the default implementation. -/
def execTlmEmit (s : State) : Host.Outcome State Fault Refusal := Impl.ieee32.tlmEmit s

/-- TICK on the default implementation. -/
def execTick (data : BitVec 32) (s : State) : Host.Outcome State Fault Refusal := Impl.ieee32.tick data s

end Sys2Proof.Machine
end

