-- ==== Sys2Proof/Machine/Dispatch.lean ====
section
/-! DEFINITION. The one match from an operation to its meaning. -/

namespace Sys2Proof.Machine

def exec (i : Instr) (s : State) : Host.Outcome State Fault Refusal :=
  match i with
  -- The host commands (R82); the fields a command does not use are ignored (R81).
  | .reset _ _ => Sys2Proof.Machine.execReset s
  | .cfgw idx data => Sys2Proof.Machine.execCfgw idx data s
  | .csrr idx _ => Sys2Proof.Machine.execCsrr idx s
  | .design _ _ => Sys2Proof.Machine.execDesign s
  | .tick _ data => Sys2Proof.Machine.execTick data s
  | .eos _ _ => Sys2Proof.Machine.execEos s
  | .serr _ _ => Sys2Proof.Machine.execSerr s
  -- The micro-operations (R84).
  | .acq => Sys2Proof.Machine.execAcq s
  | .ncoStep => Sys2Proof.Machine.execNcoStep s
  | .mix => Sys2Proof.Machine.execMix s
  | .firI => Sys2Proof.Machine.execFirI s
  | .firQ => Sys2Proof.Machine.execFirQ s
  | .loopUpdate => Sys2Proof.Machine.execLoopUpdate s
  | .lockEval => Sys2Proof.Machine.execLockEval s
  | .decStep => Sys2Proof.Machine.execDecStep s
  | .tlmEmit => Sys2Proof.Machine.execTlmEmit s

end Sys2Proof.Machine
end

