-- ==== Sys2Proof/Machine/Fetch.lean ====
section
/-! DEFINITION. What selects the next operation: the `rst` pin, the sequencer of a tick in progress, or the
command port (R6, R81, R222, R223). `run` is what an operation does. -/

namespace Sys2Proof.Machine

variable {α : Type}

/-- The `rst` pin does what RESET does (R222, log 12). -/
def State.pinReset (s : State α) (n : Num α) : State α := { s.restart n with rst := false }

/-- The block takes a command: the transfer ends and the port shows the next word (R81). -/
def State.accept (s : State α) (rest : List CommandWord) : State α := { s with cmds := rest }

/-- One move of the sequencer of a tick in progress: the micro-operation its phase selects (R84). -/
def sequencerStep (run : Instr → State α → Result α) (s : State α) : Result α :=
  match decodePhase s.ph with
  | .ok i => run i s
  | .error _ => .refused .phaseNeverTaken

/-- One move of the block between commands: it waits while the port is empty (R70, R252), ignores a word whose
`op` is reserved (R86, log 6), and else carries the command to completion (R6). -/
def commandStep (run : Instr → State α → Result α) (s : State α) : Result α :=
  match s.cmds with
  | [] => .next s
  | w :: rest =>
    match decodeCommand w with
    | .ok i => run i (s.accept rest)
    | .error _ => .next (s.accept rest)

/-- One architectural step (R6). -/
def stepOnce (n : Num α) (run : Instr → State α → Result α) (s : State α) : Result α :=
  if s.rst then .next (s.pinReset n)
  else if s.cmdReady then commandStep run s
  else sequencerStep run s

/-- `s` with a code where its next step takes it: a command word at the head of the command port of a block that
is ready, or the phase of a tick in progress (log 11). -/
def State.withCode (s : State α) : Code → State α
  | .command w => { s with rst := false, cmdReady := true, cmds := w :: s.cmds }
  | .phase ph => { s with rst := false, cmdReady := false, ph := ph }

end Sys2Proof.Machine
end

