-- ==== Sys2Proof/Machine/Step.lean ====
section
/-! DEFINITION. One step, and placing an operation where the next step takes it. -/

namespace Sys2Proof.Machine

/-- One step of the machine on the default implementation. -/
def step (s : State) : Host.Outcome State Fault Refusal :=
  stepOnce F32.ieee32 exec s

/-- `s` with the operation whose bits `spec/opcode_table.json` numbers as `w` where the next step takes it. -/
def State.withFetchWord (s : State) (nbits w : Nat) : State := s.withCode (codeOfTable nbits w)

end Sys2Proof.Machine
end

