-- ==== Sys2Proof/Machine/NumReal.lean ====
section
/-! DEFINITION. `NUM_REAL` (R9): the same record over the real numbers, for reasoning, and the implementation on it.
The machine of the fixed names never runs on it; statements in exact arithmetic do. -/

namespace Sys2Proof.Config

/-- FREE VALUE (log 20). `fdiv(a, 0)` under `NUM_REAL`, which R9 leaves undefined. -/
noncomputable opaque realDivByZero : ℝ → ℝ

/-- FREE VALUE (log 20). `ofSample` of an infinity or NaN pattern under `NUM_REAL`, which R9 leaves undefined. -/
noncomputable opaque realOfNonFinite : BitVec 32 → ℝ

end Sys2Proof.Config

namespace Sys2Proof.Machine

/-- The real number a finite binary32 image denotes (R9). -/
noncomputable def F32.toReal (v : V) : ℝ := (F32.signed v : ℝ) * (2 : ℝ) ^ F32.unit v

/-- `v` is the real number `x` rounded to nearest, ties to even (R9): no finite value is nearer, of two that are equally
near `v` is the one with an even significand, and from the midpoint past the largest number on it is the infinity of
the sign of `x`. -/
def F32.IsRounded (x : ℝ) (v : V) : Prop :=
  (|x| < 2 ^ 128 - 2 ^ 103 →
    F32.finite v = true ∧
      ∀ w : V, F32.finite w = true →
        |F32.toReal v - x| ≤ |F32.toReal w - x| ∧
          (|F32.toReal w - x| = |F32.toReal v - x| → F32.toReal w ≠ F32.toReal v → v.getLsbD 0 = false)) ∧
    (2 ^ 128 - 2 ^ 103 ≤ x → v = 0x7F800000) ∧ (x ≤ -(2 ^ 128 - 2 ^ 103) → v = 0xFF800000)

/-- `ofSample` under `NUM_REAL` (R9). -/
noncomputable def realOfSample (w : BitVec 32) : ℝ :=
  if F32.finite w then F32.toReal w else Config.realOfNonFinite w

open Classical in
/-- `fdiv` under `NUM_REAL` (R9). -/
noncomputable def realDiv (a b : ℝ) : ℝ := if b = 0 then Config.realDivByZero a else a / b

open Classical in
/-- `NUM_REAL` (R9). Where R9 leaves an operation undefined the value is free (log 20). -/
noncomputable def realNum : Num ℝ where
  ofSample := realOfSample
  ofLit p q := (p : ℝ) / (q : ℝ)
  ofNat k := (k : ℝ)
  fadd := (· + ·)
  fsub := (· - ·)
  fmul := (· * ·)
  fdiv := realDiv
  fneg := fun a => -a
  fabs := fun a => |a|
  fsin := Real.sin
  fcos := Real.cos
  fgt a b := decide (a > b)
  fge a b := decide (a ≥ b)
  feq a b := decide (a = b)
  finite := fun _ => true
  pi := Real.pi

/-- The implementation with exact arithmetic (R9, R208). The wave counter is the unbounded natural that R23 calls
normative. -/
noncomputable def Impl.real : Impl ℝ where
  num := realNum
  sampleDefined := F32.finite
  wcBits := none
  exitFailCode := Config.exitFailCode
  nMax := none

/-- `k` calls of `fir` (R111) with the inputs `u 0, u 1, ..` from a history and a cursor: the history and cursor they
leave. -/
def firCalls {α : Type} [DecidableEq α] (n : Num α) (coef : Memory α) (len : Nat) (h : Memory α × Nat) (u : Nat → α) :
    Nat → Memory α × Nat
  | 0 => h
  | k + 1 =>
    ((fir n coef (firCalls n coef len h u k).1 len (firCalls n coef len h u k).2 (u k)).hist,
      (fir n coef (firCalls n coef len h u k).1 len (firCalls n coef len h u k).2 (u k)).cur)

end Sys2Proof.Machine
end

