-- ==== Sys2Proof/Machine/Over.lean ====
section
/-! DEFINITION. The machine as a function of its implementation parameters (R3, R7): one operation, and one step, on any
`Impl`. `exec` and `step` are these on `Impl.ieee32`. -/

namespace Sys2Proof.Machine

variable {α : Type}

/-- What an operation does on the implementation `p` (R82, R84). -/
def Impl.exec [DecidableEq α] (p : Impl α) (i : Instr) (s : State α) : Result α :=
  match i with
  | .reset _ _ => p.reset s
  | .cfgw idx data => p.cfgw idx data s
  | .csrr idx _ => csrr idx s
  | .design _ _ => p.design s
  | .tick _ data => p.tick data s
  | .eos _ _ => eos s
  | .serr _ _ => p.serr s
  | .acq => p.acq s
  | .ncoStep => p.ncoStep s
  | .mix => p.mix s
  | .firI => p.firI s
  | .firQ => p.firQ s
  | .loopUpdate => p.loopUpdate s
  | .lockEval => p.lockEval s
  | .decStep => p.decStep s
  | .tlmEmit => p.tlmEmit s

/-- One step of the machine on the implementation `p` (R6). -/
def Impl.step [DecidableEq α] (p : Impl α) (s : State α) : Result α := stepOnce p.num p.exec s

end Sys2Proof.Machine
end

