-- ==== Sys2Proof/Safety.lean ====
section
/-! DEFINITION. What a clean run is, in the terms claims use (R225, R235, R236), and the invariant of the machine's
runs. -/

namespace Sys2Proof.Machine

/-- The run has recorded NumericFault or CounterOverflow: by R11, R235 and R236 no claim is made of what follows,
and the state is never final. -/
def State.faulted (s : State) : Bool := s.numFault || s.wcOvf

/-- The end of a run (R225). -/
def State.ended (s : State) : Bool := s.life == .halted

/-- A clean, successful end (R225): EOS, and neither sticky flag set. -/
def State.endedCleanly (s : State) : Bool := s.ended && s.exitCode == 0 && !s.faulted

/-- `k` steps, up to the first stop. -/
def State.steps : Nat → State → Result
  | 0, s => .next s
  | k + 1, s => andThen (step s) (State.steps k)

/-- Every element index of a memory is below `n`. -/
abbrev Memory.below (m : Memory) (n : Nat) : Prop := ∀ c ∈ m, c.1 < n

/-- The memories keep their canonical form, and name no element outside `0 .. N-1` (R60, R61). Before DESIGN they
hold zeros (R46). -/
abbrev State.MemoriesOk (s : State) : Prop :=
  s.hi.wf ∧ s.hq.wf ∧ s.coef.wf ∧
  (s.life = .unconfigured → s.hi = [] ∧ s.hq = [] ∧ s.coef = []) ∧
  (s.life ≠ .unconfigured →
    s.hi.below s.cfg.nTaps.toNat ∧ s.hq.below s.cfg.nTaps.toNat ∧ s.coef.below s.cfg.nTaps.toNat)

/-- The sequencer (R24, R81): between commands its phase is 0 and no tick-local value exists; during a tick the
block is RUNNING and the phase is one of the nine. -/
abbrev State.SequencerOk (s : State) : Prop :=
  (s.cmdReady = true → s.ph = 0 ∧ s.loc = TickLocal.none) ∧
  (s.cmdReady = false → s.life = .running ∧ s.ph.toNat ≤ 8)

/-- The cursors (R30): in range while RUNNING, and equal, but for the one phase between FIR.I and FIR.Q. -/
abbrev State.CursorsOk (s : State) : Prop :=
  (s.life = .running → s.curI < s.cfg.nTaps.toNat ∧ s.curQ < s.cfg.nTaps.toNat) ∧
  (s.ph = 4 → s.curI = (s.curQ + 1) % s.cfg.nTaps.toNat) ∧ (s.ph ≠ 4 → s.curI = s.curQ)

/-- What DESIGN leaves stays while RUNNING (R12, R31, R61): a legal `MODE` and tap count, the derived constants and
the designed coefficients. -/
abbrev State.DesignOk (s : State) : Prop :=
  s.life = .running →
    modeLegal s.cfg.mode = true ∧ tapsLegal Config.nMax s.cfg.nTaps.toNat = true ∧
      s.drv = s.cfg.derived F32.ieee32 ∧
      s.coef = writeCoefs F32.ieee32 (s.cfg.fc F32.ieee32) s.cfg.nTaps.toNat [] s.cfg.nTaps.toNat

/-- `CAUSE` and `EXIT` (R39): zero before HALTED; in HALTED the status says failure exactly when there is a cause. -/
abbrev State.ExitOk (s : State) : Prop :=
  (s.life ≠ .halted → s.cause = .none ∧ s.exitCode = 0) ∧
  (s.life = .halted → s.exitCode = if s.cause = .none then 0 else Config.exitFailCode)

/-- Before DESIGN the datapath registers are those of RESET (R46). -/
abbrev State.UnconfiguredOk (s : State) : Prop :=
  s.life = .unconfigured →
    s.drv = State.reset.drv ∧ s.osc = State.reset.osc ∧ s.loop = State.reset.loop ∧
      s.dec = State.reset.dec ∧ s.curI = 0 ∧ s.curQ = 0 ∧ s.tlm = Telemetry.zero ∧
      s.numFault = false ∧ s.wcOvf = false

/-- The recorded fault (R239) has left its mark: a model-level fault its sticky flag (R41, R42), a fatal error `LIFE` and
`CAUSE` (R240). Before the first command that can raise one none is recorded. -/
abbrev State.RecordOk (s : State) : Prop :=
  (s.life = .unconfigured → s.recorded = none) ∧
  (s.recorded = some .numericFault → s.numFault = true) ∧ (s.recorded = some .counterOverflow → s.wcOvf = true) ∧
  (s.recorded = some .configurationError → s.life = .halted ∧ s.cause = .configurationError) ∧
  (s.recorded = some .streamError → s.life = .halted ∧ s.cause = .streamError)

/-- The invariant of the machine's runs: it holds at reset and every step keeps it. -/
abbrev State.Inv (s : State) : Prop :=
  s.MemoriesOk ∧ s.SequencerOk ∧ s.CursorsOk ∧ s.DesignOk ∧ s.ExitOk ∧ s.UnconfiguredOk ∧ s.RecordOk ∧
    s.osc.wc ≤ Config.wcMax

end Sys2Proof.Machine
end

