-- ==== Sys2Proof/Certificates/Slice0/Obligations.lean ====
section
/-! DEFINITION. The statements made of the model, each named for what it says. Where a statement gives a whole next
state as `{ s with .. }`, every field not named is unchanged: that is its frame. -/

open Sys2Proof Sys2Proof.Machine

/-! ### Encoding -/

/-- Decoding the code of any operation gives the operation back, with every field at every value (R81, R82, R84). -/
def Obligations.DecodeEncodeRoundTrip : Prop := ∀ i : Instr, decode (encode i) = .ok i

/-- A code that decodes is the code of what it decodes to: no word or phase has a second meaning (R81, R95). -/
def Obligations.EncodeDecodeRoundTrip : Prop :=
  ∀ (c : Code) (i : Instr), decode c = .ok i → encode i = c

/-- The whole map of R95: every `op`, every phase, the fields carried as they stand. -/
def Obligations.OpcodeMapIsWhole : Prop :=
  (∀ (op : BitVec 4) (idx : BitVec 8) (data : BitVec 32),
    decodeCommand (op ++ idx ++ data) =
      if op = 0x1 then .ok (.reset idx data)
      else if op = 0x2 then .ok (.cfgw idx data)
      else if op = 0x3 then .ok (.csrr idx data)
      else if op = 0x4 then .ok (.design idx data)
      else if op = 0x5 then .ok (.tick idx data)
      else if op = 0x6 then .ok (.eos idx data)
      else if op = 0x7 then .ok (.serr idx data)
      else .error (.reservedOp op)) ∧
  (∀ ph : BitVec 4,
    decodePhase ph =
      if ph = 0 then .ok .acq
      else if ph = 1 then .ok .ncoStep
      else if ph = 2 then .ok .mix
      else if ph = 3 then .ok .firI
      else if ph = 4 then .ok .firQ
      else if ph = 5 then .ok .loopUpdate
      else if ph = 6 then .ok .lockEval
      else if ph = 7 then .ok .decStep
      else if ph = 8 then .ok .tlmEmit
      else .error (.phaseNeverTaken ph))

/-- Words the spec writes out in `95_test_vectors.md` decode to the commands it writes beside them (a sanity
statement). -/
def Obligations.SpecWordsDecode : Prop :=
  decodeCommand 0x10000000000 = .ok (.reset 0 0) ∧
  decodeCommand 0x20B00000004 = .ok (.cfgw 0x0B 0x4) ∧
  decodeCommand 0x2103F800000 = .ok (.cfgw 0x10 0x3F800000) ∧
  decodeCommand 0x33300000000 = .ok (.csrr 0x33 0) ∧
  decodeCommand 0x40000000000 = .ok (.design 0 0) ∧
  decodeCommand 0x500BF800000 = .ok (.tick 0 0xBF800000) ∧
  decodeCommand 0x60000000000 = .ok (.eos 0 0) ∧
  decodeCommand 0x70000000000 = .ok (.serr 0 0) ∧
  decodeCommand 0x00000000000 = .error (.reservedOp 0x0) ∧
  decodeCommand 0xF0000000000 = .error (.reservedOp 0xF)

/-! ### One step -/

/-- Between commands, a step is `exec` of the command on the port, which the transfer takes off it (R6, R81). -/
def Obligations.StepRunsDecodedCommand : Prop :=
  ∀ (s : State) (w : CommandWord) (rest : List CommandWord) (i : Instr),
    s.rst = false → s.cmdReady = true → s.cmds = w :: rest → decodeCommand w = .ok i →
      step s = exec i { s with cmds := rest }

/-- During a tick, a step is `exec` of the micro-operation its phase selects (R84). That a micro-operation is a machine
step of its own, where R6 makes the whole command one step, is the model's choice (log 10). -/
def Obligations.StepRunsSequencedMicroOp : Prop :=
  ∀ (s : State) (i : Instr),
    s.rst = false → s.cmdReady = false → decodePhase s.ph = .ok i → step s = exec i s

/-- Between commands the block waits with all state kept while no word stands on the port, and a word with a reserved
`op` changes nothing but the port (R70, R86, R252). That the step answers a next state for the reserved word, where the
spec lets a model refuse, is the model's choice (log 6). -/
def Obligations.StepWaitsOrIgnoresReservedWord : Prop :=
  ∀ s : State, s.rst = false → s.cmdReady = true →
    (s.cmds = [] → step s = .next s) ∧
    ∀ (w : CommandWord) (rest : List CommandWord) (e : DecodeError),
      s.cmds = w :: rest → decodeCommand w = .error e → step s = .next { s with cmds := rest }

/-- `withFetchWord` places a table word where the very next step runs it. -/
def Obligations.PlacedWordIsRunNext : Prop :=
  ∀ (s : State) (nbits w : Nat) (i : Instr), decodeTableWord nbits w = some i →
    step (s.withFetchWord nbits w) =
      if nbits ≤ 8 then exec i { s with rst := false, cmdReady := false, ph := BitVec.ofNat 4 w }
      else exec i { s with rst := false, cmdReady := true }

/-! ### RESET and the register space -/

/-- RESET (R222): admitted in every state, it gives every register and memory the value of R46 and emits nothing; the
`rst` pin does the same; and no other operation leaves HALTED. The model's choices in it: that no fault is then recorded,
the record being a field of its own that R46 does not name (log 26), and that a step with the pin high is that reset and
comes before the command port and a tick in progress (log 12). -/
def Obligations.ResetRestoresEverything : Prop :=
  (∀ (s : State) (idx : CsrIndex) (data : BitVec 32), ∃ t, exec (.reset idx data) s = .next t ∧
    t.life = .unconfigured ∧ t.cause = .none ∧ t.exitCode = 0 ∧ t.numFault = false ∧ t.wcOvf = false ∧
    t.recorded = none ∧ t.ph = 0 ∧ t.cmdReady = true ∧
    t.cfg = { nTaps := 0, sampleRate := 0x483B8000, cutoff := 0, refPeriod := 0, phaseGain := 0,
              cycPerClock := 0, cycPerBit := 0, lockThr := 0x3E19999A, ampThr := 0x3EC28F5C,
              kiFactor := 0x3F99999A, kfFactor := 0x3E800000, mode := 0, tPeriodInit := 0,
              tPhaseInit := 0 } ∧
    t.drv = { fc := 0, samplePeriod := 0, integralGain := 0, freqGain := 0, halfThr2 := 0 } ∧
    t.osc = { acc := 0, tPeriod := 0, tPhase := 0, wc := 0 } ∧
    t.loop = { errInt := 0, lockM := 0, qualM := 0 } ∧
    t.dec = { locked := false, prevSign := .zero, short := false } ∧
    t.curI = 0 ∧ t.curQ = 0 ∧
    (∀ a, t.hi.read a = 0 ∧ t.hq.read a = 0 ∧ t.coef.read a = 0) ∧
    (∀ k : CsrIndex, 0x40 ≤ k → k ≤ 0x4B → t.csrRead k = 0) ∧
    t.out = s.out ∧ t.cmds = s.cmds) ∧
  (∀ s t : State, s.rst = true → exec (.reset 0 0) { s with rst := false } = .next t → step s = .next t) ∧
  (∀ (i : Instr) (s t : State), s.life = .halted → exec i s = .next t → t.life ≠ .halted →
    ∃ idx data, i = .reset idx data)

/-- CFGW (R220): while UNCONFIGURED it writes the configuration register it names, which then reads as the data, and
no other; a number above 0x0D names none and nothing changes. -/
def Obligations.CfgwWritesOneRegister : Prop :=
  ∀ (s : State) (idx : CsrIndex) (data : BitVec 32), s.life = .unconfigured →
    ∃ t, exec (.cfgw idx data) s = .next t ∧ t = { s with cfg := t.cfg } ∧
      (0x0D < idx → t = s) ∧
      (idx ≤ 0x0D → t.csrRead idx = data ∧ ∀ k : CsrIndex, k ≤ 0x0D → k ≠ idx → t.csrRead k = s.csrRead k)

/-- CSRR (R221): in every lifecycle state it answers the register's image on the response port, 0 for a reserved
number, and changes nothing. -/
def Obligations.CsrrAnswersAndChangesNothing : Prop :=
  ∀ (s : State) (idx : CsrIndex) (data : BitVec 32),
    exec (.csrr idx data) s = .next { s with out := s.out ++ [.response (s.csr idx)] } ∧
    (s.csr idx).image = s.csrRead idx ∧
    ((0x0D < idx ∧ idx < 0x10) ∨ (0x14 < idx ∧ idx < 0x20) ∨ (0x22 < idx ∧ idx < 0x30) ∨
      (0x38 < idx ∧ idx < 0x40) ∨ 0x4B < idx → s.csrRead idx = 0)

/-- Which field each configuration register (R36), derived constant (R38) and telemetry register (R43) shows. -/
def Obligations.CsrNumbersNameTheirRegisters : Prop :=
  ∀ s : State,
    (s.csrRead 0x00 = s.cfg.nTaps ∧ s.csrRead 0x01 = s.cfg.sampleRate ∧ s.csrRead 0x02 = s.cfg.cutoff ∧
      s.csrRead 0x03 = s.cfg.refPeriod ∧ s.csrRead 0x04 = s.cfg.phaseGain ∧ s.csrRead 0x05 = s.cfg.cycPerClock ∧
      s.csrRead 0x06 = s.cfg.cycPerBit ∧ s.csrRead 0x07 = s.cfg.lockThr ∧ s.csrRead 0x08 = s.cfg.ampThr ∧
      s.csrRead 0x09 = s.cfg.kiFactor ∧ s.csrRead 0x0A = s.cfg.kfFactor ∧ s.csrRead 0x0B = s.cfg.mode ∧
      s.csrRead 0x0C = s.cfg.tPeriodInit ∧ s.csrRead 0x0D = s.cfg.tPhaseInit) ∧
    (s.csrRead 0x10 = s.drv.fc ∧ s.csrRead 0x11 = s.drv.samplePeriod ∧ s.csrRead 0x12 = s.drv.integralGain ∧
      s.csrRead 0x13 = s.drv.freqGain ∧ (s.csrRead 0x14).toNat = s.drv.halfThr2 % 2 ^ 32) ∧
    (s.csrRead 0x40 = s.tlm.tPeriod ∧ s.csrRead 0x41 = s.tlm.tPhase ∧ s.csrRead 0x42 = s.tlm.sample ∧
      s.csrRead 0x43 = s.tlm.i ∧ s.csrRead 0x44 = s.tlm.q ∧ s.csrRead 0x45 = s.tlm.lock ∧
      s.csrRead 0x46 = s.tlm.qual ∧ s.csrRead 0x47 = s.tlm.sI ∧ s.csrRead 0x48 = s.tlm.sQ ∧
      s.csrRead 0x49 = s.tlm.err ∧ s.csrRead 0x4A = s.tlm.errInt ∧ s.csrRead 0x4B = s.tlm.errC)

/-- Which configuration register CFGW writes under each number (R36, R220), and that it writes nothing else. -/
def Obligations.CfgwNumbersNameTheirRegisters : Prop :=
  ∀ (s : State) (d : BitVec 32), s.life = .unconfigured →
    exec (.cfgw 0x00 d) s = .next { s with cfg := { s.cfg with nTaps := d } } ∧
    exec (.cfgw 0x01 d) s = .next { s with cfg := { s.cfg with sampleRate := d } } ∧
    exec (.cfgw 0x02 d) s = .next { s with cfg := { s.cfg with cutoff := d } } ∧
    exec (.cfgw 0x03 d) s = .next { s with cfg := { s.cfg with refPeriod := d } } ∧
    exec (.cfgw 0x04 d) s = .next { s with cfg := { s.cfg with phaseGain := d } } ∧
    exec (.cfgw 0x05 d) s = .next { s with cfg := { s.cfg with cycPerClock := d } } ∧
    exec (.cfgw 0x06 d) s = .next { s with cfg := { s.cfg with cycPerBit := d } } ∧
    exec (.cfgw 0x07 d) s = .next { s with cfg := { s.cfg with lockThr := d } } ∧
    exec (.cfgw 0x08 d) s = .next { s with cfg := { s.cfg with ampThr := d } } ∧
    exec (.cfgw 0x09 d) s = .next { s with cfg := { s.cfg with kiFactor := d } } ∧
    exec (.cfgw 0x0A d) s = .next { s with cfg := { s.cfg with kfFactor := d } } ∧
    exec (.cfgw 0x0B d) s = .next { s with cfg := { s.cfg with mode := d } } ∧
    exec (.cfgw 0x0C d) s = .next { s with cfg := { s.cfg with tPeriodInit := d } } ∧
    exec (.cfgw 0x0D d) s = .next { s with cfg := { s.cfg with tPhaseInit := d } }

/-- The state views (R40): what they show, that CFGW reaches none of them, that CSRR reads without a side effect, and
that no number is a window on the memories. -/
def Obligations.StateViewsShowTheState : Prop :=
  ∀ s : State,
    s.csrRead 0x30 = s.osc.acc ∧ s.csrRead 0x31 = s.osc.tPeriod ∧ s.csrRead 0x32 = s.osc.tPhase ∧
    (s.csrRead 0x33).toNat = s.osc.wc % 2 ^ 32 ∧ s.csrRead 0x34 = s.loop.errInt ∧
    s.csrRead 0x35 = s.loop.lockM ∧ s.csrRead 0x36 = s.loop.qualM ∧
    (s.curI < 2 ^ 32 → (s.csrRead 0x37).toNat = s.curI) ∧ (s.curQ < 2 ^ 32 → (s.csrRead 0x38).toNat = s.curQ) ∧
    (∀ (k : CsrIndex) (data : BitVec 32) (t : State), 0x30 ≤ k → k ≤ 0x38 → exec (.cfgw k data) s = .next t →
      t = s) ∧
    (∀ (k : CsrIndex) (data : BitVec 32),
      exec (.csrr k data) s = .next { s with out := s.out ++ [.response (s.csr k)] }) ∧
    (∀ (k : CsrIndex) (hi hq coef : Memory),
      ({ s with hi := hi, hq := hq, coef := coef } : State).csrRead k = s.csrRead k)

/-- The fields of `STATUS`, `CAUSE` and `EXIT` (R39). -/
def Obligations.StatusFieldsAreWhereTheyStand : Prop :=
  ∀ s : State,
    (s.csrRead 0x20).extractLsb' 0 2 = (match s.life with | .unconfigured => 0 | .running => 1 | .halted => 2) ∧
    (s.csrRead 0x20).getLsbD 2 = s.dec.locked ∧ (s.csrRead 0x20).getLsbD 3 = s.dec.short ∧
    ((s.csrRead 0x20).extractLsb' 4 2).toInt =
      (match s.dec.prevSign with | .neg => -1 | .zero => 0 | .pos => 1) ∧
    (s.csrRead 0x20).getLsbD 6 = s.numFault ∧ (s.csrRead 0x20).getLsbD 7 = s.wcOvf ∧
    (s.csrRead 0x20).extractLsb' 8 24 = 0 ∧
    s.csrRead 0x21 = (match s.cause with | .none => 0 | .configurationError => 1 | .streamError => 2) ∧
    (s.csrRead 0x22).toNat = s.exitCode.toNat

/-- The words on the event port (R92) and the telemetry port (R93): codes, data and the order of the twelve fields. -/
def Obligations.OutputWordsHaveTheirFields : Prop :=
  (∀ e : Event V,
    e.word.extractLsb' 32 3 =
      (match e with | .lockAcq => 1 | .lockLost _ => 2 | .bit _ => 3 | .anomaly => 4) ∧
    e.word.extractLsb' 0 32 =
      (match e with | .lockAcq => 0 | .lockLost lockm => lockm | .bit b => (if b then 1 else 0) | .anomaly => 0)) ∧
  (∀ r : Telemetry V,
    r.word.extractLsb' 352 32 = r.tPeriod ∧ r.word.extractLsb' 320 32 = r.tPhase ∧
    r.word.extractLsb' 288 32 = r.sample ∧ r.word.extractLsb' 256 32 = r.i ∧
    r.word.extractLsb' 224 32 = r.q ∧ r.word.extractLsb' 192 32 = r.lock ∧
    r.word.extractLsb' 160 32 = r.qual ∧ r.word.extractLsb' 128 32 = r.sI ∧
    r.word.extractLsb' 96 32 = r.sQ ∧ r.word.extractLsb' 64 32 = r.err ∧
    r.word.extractLsb' 32 32 = r.errInt ∧ r.word.extractLsb' 0 32 = r.errC)

/-! ### The end of a run and commands out of place -/

/-- EOS (R218): a clean end, and nothing else changes or is emitted. -/
def Obligations.EosEndsCleanly : Prop :=
  ∀ (s : State) (idx : CsrIndex) (data : BitVec 32), s.life = .running →
    exec (.eos idx data) s = .next { s with life := .halted, cause := .none, exitCode := 0 }

/-- SERR (R219, R232, R240): StreamError, which is the fault recorded (R239, log 26); the datapath stays as the last tick left
it and nothing is emitted. -/
def Obligations.SerrRaisesStreamError : Prop :=
  ∀ (s : State) (idx : CsrIndex) (data : BitVec 32), s.life = .running →
    exec (.serr idx data) s =
      .next { s with life := .halted, cause := .streamError, exitCode := Config.exitFailCode,
                     recorded := some .streamError, ph := 0 }

/-- Commands the lifecycle state does not admit (R247) change nothing. The spec lets a model refuse them and says that
the hardware ignores them; that they answer a next state is the model's choice (log 6). -/
def Obligations.UnadmittedCommandsChangeNothing : Prop :=
  ∀ (s : State) (idx : CsrIndex) (data : BitVec 32),
    (s.life ≠ .unconfigured → exec (.cfgw idx data) s = .next s ∧ exec (.design idx data) s = .next s) ∧
    (s.life ≠ .running →
      exec (.tick idx data) s = .next s ∧ exec (.eos idx data) s = .next s ∧ exec (.serr idx data) s = .next s)

/-! ### DESIGN -/

/-- ConfigurationError (R231): whenever `FC` is 1 or more the block halts with the failure status, `FC` holds the offending
value, and no coefficient, datapath register or output is touched; nothing but DESIGN raises it. The fault recorded is
NumericFault if `FC` is not finite, else ConfigurationError (R239, log 26). That it is raised before the rest of the
configuration is looked at, and that on an `FC` of `+∞` the block carries on to the Nyquist test and halts as well, is the
model's choice (log 8, log 4): R247 and R266 give DESIGN no meaning on an ill-formed configuration. -/
def Obligations.DesignRaisesConfigurationError : Prop :=
  (∀ (i : Instr) (s t : State), exec i s = .next t → s.cause ≠ .configurationError → t.cause = .configurationError →
    ∃ idx data, i = .design idx data) ∧
  ∀ (s : State) (idx : CsrIndex) (data : BitVec 32), s.life = .unconfigured →
    let fc := F32.div (F32.mul (F32.ofNat 2) s.cfg.cutoff) s.cfg.sampleRate
    let raised : Bool :=
      F32.eq s.cfg.sampleRate 0 || !F32.finite (F32.mul (F32.ofNat 2) s.cfg.cutoff) || !F32.finite fc
    F32.ge fc (F32.ofNat 1) = true →
    exec (.design idx data) s =
      .next { s with
        life := .halted, cause := .configurationError, exitCode := Config.exitFailCode, ph := 0
        drv := { s.drv with fc := fc }
        numFault := s.numFault || raised
        recorded := if raised then some .numericFault else some .configurationError } ∧
    (raised = true ↔ F32.finite fc = false)

/-- A successful DESIGN computes the derived constants of R4 and the coefficients of R114, in the order of evaluation
the rules give. -/
def Obligations.DesignComputesConstantsAndCoefficients : Prop :=
  ∀ (s : State) (idx : CsrIndex) (data : BitVec 32), s.life = .unconfigured → s.coef.wf →
    s.cfg.wellFormed Impl.ieee32 = true →
    F32.ge (F32.div (F32.mul (F32.ofNat 2) s.cfg.cutoff) s.cfg.sampleRate) (F32.ofNat 1) = false →
    ∃ t, exec (.design idx data) s = .next t ∧
      t.drv.fc = F32.div (F32.mul (F32.ofNat 2) s.cfg.cutoff) s.cfg.sampleRate ∧
      t.drv.samplePeriod = F32.div (F32.ofNat 1) s.cfg.sampleRate ∧
      t.drv.integralGain = F32.div (F32.mul s.cfg.kiFactor s.cfg.phaseGain) s.cfg.refPeriod ∧
      t.drv.freqGain = F32.mul (F32.mul s.cfg.phaseGain s.cfg.phaseGain) s.cfg.kfFactor ∧
      t.drv.halfThr2 = s.cfg.cycPerClock.toNat + s.cfg.cycPerBit.toNat ∧
      ∀ k, k < s.cfg.nTaps.toNat →
        t.coef.read k =
          if 2 * k = s.cfg.nTaps.toNat - 1 then t.drv.fc
          else
            let d := F32.sub (F32.ofNat k) (F32.div (F32.ofNat (s.cfg.nTaps.toNat - 1)) (F32.ofNat 2))
            F32.div (F32.sin (F32.mul (F32.mul t.drv.fc 0x40490FDB) d)) (F32.mul 0x40490FDB d)

/-- A successful DESIGN creates the state objects of R47 and leaves the rest: it runs, and nothing is emitted.
`PREV_SIGN` is what bits 4:3 of `MODE` encode: 00 is 0, 01 is +1, 11 is -1 (R37). `NUMFAULT` is set exactly if it was, or a
divisor is zero, or a constant or coefficient is not finite (R11, R41, R116), or a value on the way to one is not: that the
values on the way count, also where the argument of a sine overflows and the coefficient is finite, is the model's reading
(DEDUCED, log 19). NumericFault is then the fault recorded (R239, log 26). The premise on the configuration is R266 with zero divisors allowed, on which the model
carries on (R11, log 8). -/
def Obligations.DesignCreatesTheStateObjects : Prop :=
  ∀ (s : State) (idx : CsrIndex) (data : BitVec 32), s.life = .unconfigured → s.cfg.runnable Impl.ieee32 = true →
    let c := s.cfg
    let n := c.nTaps.toNat
    let fc := F32.div (F32.mul (F32.ofNat 2) c.cutoff) c.sampleRate
    let d := fun k => F32.sub (F32.ofNat k) (F32.div (F32.ofNat (n - 1)) (F32.ofNat 2))
    let arg := fun k => F32.mul (F32.mul fc 0x40490FDB) (d k)
    let bad : Prop :=
      F32.eq c.sampleRate 0 = true ∨ F32.eq c.refPeriod 0 = true ∨
      (∃ v ∈ [F32.mul (F32.ofNat 2) c.cutoff, fc, F32.div (F32.ofNat 1) c.sampleRate,
          F32.mul c.kiFactor c.phaseGain, F32.div (F32.mul c.kiFactor c.phaseGain) c.refPeriod,
          F32.mul c.phaseGain c.phaseGain, F32.mul (F32.mul c.phaseGain c.phaseGain) c.kfFactor],
        F32.finite v = false) ∨
      ∃ k, k < n ∧ 2 * k + 1 ≠ n ∧
        ∃ v ∈ [d k, F32.mul fc 0x40490FDB, arg k, F32.sin (arg k), F32.mul 0x40490FDB (d k),
            F32.div (F32.sin (arg k)) (F32.mul 0x40490FDB (d k))],
          F32.finite v = false
    F32.ge fc (F32.ofNat 1) = false →
    ∃ t, exec (.design idx data) s = .next t ∧ t.life = .running ∧
      t = { s with
        life := .running
        osc := { acc := 0, tPeriod := c.tPeriodInit, tPhase := c.tPhaseInit, wc := 0 }
        loop := { errInt := 0, lockM := 0, qualM := 0 }
        dec := { locked := false, prevSign := t.dec.prevSign, short := false }
        curI := 0, curQ := 0, tlm := Telemetry.zero
        hi := t.hi, hq := t.hq, coef := t.coef, drv := t.drv, numFault := t.numFault, recorded := t.recorded } ∧
      (c.mode.extractLsb' 3 2 = 0b00 ∧ t.dec.prevSign = .zero ∨
        c.mode.extractLsb' 3 2 = 0b01 ∧ t.dec.prevSign = .pos ∨
        c.mode.extractLsb' 3 2 = 0b11 ∧ t.dec.prevSign = .neg) ∧
      (∀ a, t.hi.read a = if a < n then 0 else s.hi.read a) ∧
      (∀ a, t.hq.read a = if a < n then 0 else s.hq.read a) ∧
      (s.coef.wf → ∀ a, n ≤ a → t.coef.read a = s.coef.read a) ∧
      (t.numFault = true ↔ s.numFault = true ∨ bad) ∧
      (bad → t.recorded = some .numericFault) ∧ (¬bad → t.recorded = none)

/-- What makes a configuration well-formed (R266), condition by condition, and the configurations DESIGN runs on: the same
with `SAMPLE_RATE` and `REF_PERIOD` allowed to be zero, which is the model's choice (log 8). -/
def Obligations.WellFormedConfigurationIsTheListOfR266 : Prop :=
  ∀ c : CfgRegs V,
    let common :=
      1 ≤ c.nTaps.toNat ∧ (∀ d, Config.nMax = some d → c.nTaps.toNat ≤ d) ∧ c.nTaps.toNat < 2 ^ 24 ∧
      (F32.finite c.sampleRate = true ∧ F32.finite c.cutoff = true ∧ F32.finite c.refPeriod = true ∧
        F32.finite c.phaseGain = true ∧ F32.finite c.lockThr = true ∧ F32.finite c.ampThr = true ∧
        F32.finite c.kiFactor = true ∧ F32.finite c.kfFactor = true ∧ F32.finite c.tPeriodInit = true ∧
        F32.finite c.tPhaseInit = true) ∧
      F32.eq c.tPeriodInit 0 = false ∧ F32.ge c.ampThr 0 = true ∧
      c.cycPerClock.toNat + c.cycPerBit.toNat < 2 ^ 32 ∧
      c.mode.extractLsb' 1 2 ≠ 0b11 ∧ c.mode.extractLsb' 3 2 ≠ 0b10 ∧ c.mode.getLsbD 5 = false ∧
      c.mode.extractLsb' 6 2 = 0 ∧ c.mode.extractLsb' 8 24 = 0
    (c.wellFormed Impl.ieee32 = true ↔
      common ∧ F32.gt c.sampleRate 0 = true ∧ F32.gt c.refPeriod 0 = true) ∧
    (c.runnable Impl.ieee32 = true ↔ common ∧ F32.ge c.sampleRate 0 = true ∧ F32.ge c.refPeriod 0 = true)

/-- DESIGN stops on a configuration that breaks a condition of R266: the spec gives it no meaning there. The Nyquist test
comes first (R239). A zero `SAMPLE_RATE` or `REF_PERIOD`, which breaks R266 too, does not stop it: that is the model's
choice (log 8). `N_MAX` is unbounded (log 7). -/
def Obligations.DesignStopsOnIllFormedConfiguration : Prop :=
  ∀ (s : State) (idx : CsrIndex) (data : BitVec 32), s.life = .unconfigured →
    F32.ge (F32.div (F32.mul (F32.ofNat 2) s.cfg.cutoff) s.cfg.sampleRate) (F32.ofNat 1) = false →
    s.cfg.nTaps = 0 ∨ 2 ^ 24 ≤ s.cfg.nTaps.toNat ∨
      (∃ v ∈ [s.cfg.sampleRate, s.cfg.cutoff, s.cfg.refPeriod, s.cfg.phaseGain, s.cfg.lockThr, s.cfg.ampThr,
        s.cfg.kiFactor, s.cfg.kfFactor, s.cfg.tPeriodInit, s.cfg.tPhaseInit], F32.finite v = false) ∨
      F32.gt 0 s.cfg.sampleRate = true ∨ F32.gt 0 s.cfg.refPeriod = true ∨ F32.eq s.cfg.tPeriodInit 0 = true ∨
      F32.gt 0 s.cfg.ampThr = true ∨ 2 ^ 32 ≤ s.cfg.cycPerClock.toNat + s.cfg.cycPerBit.toNat ∨
      s.cfg.mode.extractLsb' 1 2 = 0b11 ∨ s.cfg.mode.extractLsb' 3 2 = 0b10 ∨ s.cfg.mode.getLsbD 5 = true ∨
      s.cfg.mode.extractLsb' 6 2 ≠ 0 ∨ s.cfg.mode.extractLsb' 8 24 ≠ 0 →
    exec (.design idx data) s = .refused .illFormedConfig

/-- DESIGN on a zero `SAMPLE_RATE` or `REF_PERIOD` carries on, sets `NUMFAULT` and records the division by zero (R11, R41, log
8, log 26). -/
def Obligations.DesignRecordsZeroDivisor : Prop :=
  ∀ (s : State) (idx : CsrIndex) (data : BitVec 32), s.life = .unconfigured → s.cfg.runnable Impl.ieee32 = true →
    F32.ge (s.cfg.fc F32.ieee32) (F32.ofNat 1) = false →
    F32.eq s.cfg.sampleRate 0 = true ∨ F32.eq s.cfg.refPeriod 0 = true →
    ∃ t, exec (.design idx data) s = .next t ∧ t.life = .running ∧ t.numFault = true ∧
      t.recorded = some .numericFault

/-! ### TICK -/

/-- A TICK is its nine micro-operations, run by the sequencer one step each in the order of R207 (R206). The one-step-each
sequencer beside the atomic TICK of R6 is the model's choice (log 10). -/
def Obligations.TickIsNineSequencerSteps : Prop :=
  ∀ (s : State) (idx : CsrIndex) (data : BitVec 32), s.life = .running → s.rst = false →
    exec (.tick idx data) s = (s.beginTick data).steps 9

/-- A TICK completes (R206) and sends what R217 and R243 say: the lock event if any, the decoder's events if any, never
after a loss of lock, then the record; it leaves configuration, constants, coefficients and lifecycle alone. The lock event
is that of the edge of `LOCKED` (R174). The decoder's events are those of R194 for this tick's wave count, sign and
`LOCKED`; the clause that gives them stays below the counter's greatest value, past which R236 calls the run faulted. -/
def Obligations.TickCompletesAndSendsInOrder : Prop :=
  ∀ (s : State) (idx : CsrIndex) (data : BitVec 32), s.life = .running →
    s.curI < s.cfg.nTaps.toNat → s.curQ < s.cfg.nTaps.toNat →
    s.cfg.mode.extractLsb' 1 2 ≠ 0b11 → s.cfg.mode.getLsbD 5 = false → s.cfg.mode.extractLsb' 6 2 = 0 →
    ∃ t le de, exec (.tick idx data) s = .next t ∧
      t.out = s.out ++ (le ++ de).map .event ++ [.telemetry t.tlm] ∧
      le = (if s.dec.locked = false ∧ t.dec.locked = true then [.lockAcq]
        else if s.dec.locked = true ∧ t.dec.locked = false then [.lockLost t.loop.lockM] else []) ∧
      t.dec.locked = F32.gt t.loop.lockM s.cfg.lockThr ∧
      (de = [] ∨ de = [.bit false] ∨ de = [.bit true] ∨ de = [.bit true, .anomaly]) ∧
      (t.dec.locked = false → de = []) ∧
      (let a := F32.add s.osc.acc (F32.div (F32.mul s.drv.samplePeriod 0x40C90FDB) s.osc.tPeriod)
       let w := if F32.gt a 0x40C90FDB = true then s.osc.wc + 1 else s.osc.wc
       let sign := if F32.gt t.tlm.sI 0 = true then Sign.pos else Sign.neg
       s.osc.wc < 2 ^ Config.wcBits - 1 →
        de =
          if t.dec.locked = true ∧ F32.gt (F32.abs t.tlm.sI) s.cfg.ampThr = true ∧ sign ≠ s.dec.prevSign then
            (if 2 * w ≤ s.drv.halfThr2 then (if s.dec.short = false then [] else [.bit false])
              else if s.dec.short = false then [.bit true] else [.bit true, .anomaly])
          else []) ∧
      t.tlm.sample = data ∧ t.ph = 0 ∧ t.cmdReady = true ∧ t.loc = TickLocal.none ∧
      t.cfg = s.cfg ∧ t.drv = s.drv ∧ t.coef = s.coef ∧ t.life = s.life ∧ t.cause = s.cause ∧
      t.exitCode = s.exitCode ∧ t.cmds = s.cmds ∧ t.rst = s.rst

/-- The feedback is one tick long (R271): the accumulator of a tick advances by the tracked period the tick before left
(R130, R136), its references add the tracked phase that tick left (R133), and its record shows the period and phase it
leaves for the next (R216). -/
def Obligations.TickFeedsTheNextTick : Prop :=
  ∀ (s t : State) (idx : CsrIndex) (data : BitVec 32), s.life = .running → exec (.tick idx data) s = .next t →
    let a := F32.add s.osc.acc (F32.div (F32.mul s.drv.samplePeriod 0x40C90FDB) s.osc.tPeriod)
    t.osc.acc = (if F32.gt a 0x40C90FDB = true then F32.sub a 0x40C90FDB else a) ∧
    t.tlm.i = F32.cos (F32.add t.osc.acc s.osc.tPhase) ∧
    t.tlm.q = F32.neg (F32.sin (F32.add t.osc.acc s.osc.tPhase)) ∧
    t.tlm.tPeriod = t.osc.tPeriod ∧ t.tlm.tPhase = t.osc.tPhase ∧ t.tlm.errInt = t.loop.errInt ∧
    t.tlm.lock = t.loop.lockM ∧ t.tlm.qual = t.loop.qualM

/-! ### The micro-operations -/

/-- ACQ (R208): under `NUM_IEEE32` the pattern is the sample as it is; under `NUM_REAL` it is the real it denotes, and an
infinity or a NaN, for which `ofSample` is undefined (a free value, log 20), is a NumericFault. -/
def Obligations.AcqTakesTheSample : Prop :=
  (∀ s : State, exec .acq s = .next { s with loc := { s.loc with x := s.loc.data }, ph := 1 }) ∧
  ∀ s : State ℝ, ∃ t, Impl.real.exec .acq s = .next t ∧
    t = { s with loc := { s.loc with x := t.loc.x }, numFault := t.numFault, recorded := t.recorded, ph := 1 } ∧
    (F32.finite s.loc.data = true →
      t.loc.x = F32.toReal s.loc.data ∧ t.numFault = s.numFault ∧ t.recorded = s.recorded) ∧
    (F32.finite s.loc.data = false → t.numFault = true ∧ t.recorded = s.recorded.or (some .numericFault))

/-- NCO.STEP (R130 to R136): increment, one strict test and at most one subtraction, one count of the wave counter a
wrap, the references from the new accumulator, `NUMFAULT` on a zero period or a value that is not finite (R135). The first
fault in pseudocode order is the one recorded, the division before the wrap (R239, log 26). That the counter is held with
`WCOVF` at its greatest value and the step goes on is the model's choice (log 5: R23 makes the unbounded natural normative,
R236 says what the hardware does), as is that both flags can be set at once (log 25). -/
def Obligations.NcoStepAdvancesTheOscillator : Prop :=
  ∀ s : State,
    let twoPi : V := 0x40C90FDB
    let sp := F32.mul s.drv.samplePeriod twoPi
    let inc := F32.div sp s.osc.tPeriod
    let a := F32.add s.osc.acc inc
    let acc := if F32.gt a twoPi = true then F32.sub a twoPi else a
    let th := F32.add acc s.osc.tPhase
    let division : Bool :=
      F32.eq s.osc.tPeriod 0 || !F32.finite sp || !F32.finite inc || !F32.finite a || !F32.finite acc
    let full : Bool := F32.gt a twoPi && decide (2 ^ Config.wcBits - 1 ≤ s.osc.wc)
    let references : Bool :=
      !F32.finite th || !F32.finite (F32.cos th) || !F32.finite (F32.sin th) ||
        !F32.finite (F32.neg (F32.sin th))
    exec .ncoStep s =
      .next { s with
        osc := { s.osc with
          acc := acc
          wc := if F32.gt a twoPi = true ∧ s.osc.wc < 2 ^ Config.wcBits - 1 then s.osc.wc + 1 else s.osc.wc }
        loc := { s.loc with i := F32.cos th, q := F32.neg (F32.sin th) }
        numFault := s.numFault || division || references
        wcOvf := s.wcOvf || full
        recorded :=
          s.recorded.or
            (if division then some .numericFault
              else if full then some .counterOverflow
              else if references then some .numericFault else none)
        ph := s.ph + 1 }

/-- MIX (R137): the sample times each reference; `NUMFAULT` and the record on a product that is not finite (R239, log
26). -/
def Obligations.MixMultipliesTheReferences : Prop :=
  ∀ s : State,
    let mI := F32.mul s.loc.x s.loc.i
    let mQ := F32.mul s.loc.x s.loc.q
    let raised : Bool := !F32.finite mI || !F32.finite mQ
    exec .mix s =
      .next { s with
        loc := { s.loc with mI := mI, mQ := mQ }
        numFault := s.numFault || raised
        recorded := s.recorded.or (if raised then some .numericFault else none)
        ph := s.ph + 1 }

/-- FIR.I (R111): the input over the oldest entry and no other element of memory; the sum from coefficient index 0
upward, the newest entry paired with index 0; then the cursor. `NUMFAULT` and the record on a product or partial sum that
is not finite (R239, log 26). -/
def Obligations.FirIFiltersTheInPhaseProduct : Prop :=
  ∀ s : State, s.curI < s.cfg.nTaps.toNat →
    let n := s.cfg.nTaps.toNat
    ∃ t, exec .firI s = .next t ∧
      t = { s with hi := t.hi, curI := t.curI, loc := { s.loc with sI := t.loc.sI }, numFault := t.numFault,
                   recorded := t.recorded, ph := s.ph + 1 } ∧
      (s.hi.wf → ∀ a, t.hi.read a = if a = s.curI then s.loc.mI else s.hi.read a) ∧
      t.curI = (s.curI + 1) % n ∧
      (let term := fun k => F32.mul (s.coef.read k) (t.hi.read ((s.curI + n - k) % n))
       let sum := fun m => (List.range m).foldl (fun acc k => F32.add acc (term k)) 0
       let raised := ∃ k, k < n ∧ (F32.finite (term k) = false ∨ F32.finite (sum (k + 1)) = false)
       t.loc.sI = sum n ∧ (t.numFault = true ↔ s.numFault = true ∨ raised) ∧
       (raised → t.recorded = s.recorded.or (some .numericFault)) ∧ (¬raised → t.recorded = s.recorded))

/-- FIR.Q (R113): the same filter on its own input, history and cursor. -/
def Obligations.FirQFiltersTheQuadratureProduct : Prop :=
  ∀ s : State, s.curQ < s.cfg.nTaps.toNat →
    let n := s.cfg.nTaps.toNat
    ∃ t, exec .firQ s = .next t ∧
      t = { s with hq := t.hq, curQ := t.curQ, loc := { s.loc with sQ := t.loc.sQ }, numFault := t.numFault,
                   recorded := t.recorded, ph := s.ph + 1 } ∧
      (s.hq.wf → ∀ a, t.hq.read a = if a = s.curQ then s.loc.mQ else s.hq.read a) ∧
      t.curQ = (s.curQ + 1) % n ∧
      (let term := fun k => F32.mul (s.coef.read k) (t.hq.read ((s.curQ + n - k) % n))
       let sum := fun m => (List.range m).foldl (fun acc k => F32.add acc (term k)) 0
       let raised := ∃ k, k < n ∧ (F32.finite (term k) = false ∨ F32.finite (sum (k + 1)) = false)
       t.loc.sQ = sum n ∧ (t.numFault = true ↔ s.numFault = true ∨ raised) ∧
       (raised → t.recorded = s.recorded.or (some .numericFault)) ∧ (¬raised → t.recorded = s.recorded))

/-- A cursor outside `0 .. N-1` stops the filter (the model's choice, log 14); R74 says that no run has one. -/
def Obligations.FiltersStopOffTheHistory : Prop :=
  ∀ s : State,
    (s.cfg.nTaps.toNat ≤ s.curI → exec .firI s = .fault .historyIndex) ∧
    (s.cfg.nTaps.toNat ≤ s.curQ → exec .firQ s = .fault .historyIndex)

/-- The two filter instances are independent: their order cannot be observed (R30, R207 (b)). -/
def Obligations.FilterOrderIsUnobservable : Prop :=
  ∀ s : State, s.curI < s.cfg.nTaps.toNat → s.curQ < s.cfg.nTaps.toNat →
    ∃ t, andThen (exec .firI s) (exec .firQ) = .next t ∧ andThen (exec .firQ s) (exec .firI) = .next t

/-- LOOP.UPDATE (R150 to R154): discriminator, integral, correction from the new integral, feedback. The sign of zero is
what bits 2:1 of `MODE` encode: 00 is -1, 01 is 0, 10 is +1; bit 5 and bits 7:6 are zero (R37). `NUMFAULT` and the record on
a value that is not finite (R239, log 26). -/
def Obligations.LoopUpdateCorrectsTheOscillator : Prop :=
  ∀ s : State,
    s.cfg.mode.extractLsb' 1 2 ≠ 0b11 → s.cfg.mode.getLsbD 5 = false → s.cfg.mode.extractLsb' 6 2 = 0 →
    let err :=
      if F32.gt s.loc.sI 0 = true then s.loc.sQ
      else if F32.gt 0 s.loc.sI = true then F32.neg s.loc.sQ
      else if s.cfg.mode.extractLsb' 1 2 = 0b00 then F32.neg s.loc.sQ
      else if s.cfg.mode.extractLsb' 1 2 = 0b01 then 0
      else s.loc.sQ
    let errInt := F32.add s.loop.errInt (F32.mul err s.drv.samplePeriod)
    let errC := F32.add err (F32.mul errInt s.drv.integralGain)
    let tPhase := F32.add s.osc.tPhase (F32.mul s.cfg.phaseGain errC)
    let tPeriod := F32.sub s.osc.tPeriod (F32.mul s.drv.freqGain errC)
    let raised : Bool :=
      !F32.finite err || !F32.finite (F32.mul err s.drv.samplePeriod) || !F32.finite errInt ||
        !F32.finite (F32.mul errInt s.drv.integralGain) || !F32.finite errC ||
        !F32.finite (F32.mul s.cfg.phaseGain errC) || !F32.finite tPhase ||
        !F32.finite (F32.mul s.drv.freqGain errC) || !F32.finite tPeriod
    exec .loopUpdate s =
      .next { s with
        osc := { s.osc with tPhase := tPhase, tPeriod := tPeriod }
        loop := { s.loop with errInt := errInt }
        loc := { s.loc with err := err, errC := errC }
        numFault := s.numFault || raised
        recorded := s.recorded.or (if raised then some .numericFault else none)
        ph := s.ph + 1 }

/-- LOOP.UPDATE stops on the selector values for which the spec has no formula, and on no other. R37 takes DESIGN's meaning
away there, so that no run has them; that LOOP.UPDATE itself stops is the model's choice (log 15). -/
def Obligations.LoopUpdateStopsOnReservedMode : Prop :=
  ∀ s : State,
    (s.cfg.mode.getLsbD 5 = true ∨ s.cfg.mode.extractLsb' 6 2 ≠ 0 ∨ s.cfg.mode.extractLsb' 1 2 = 3 →
      exec .loopUpdate s = .refused .reservedMode) ∧
    (s.cfg.mode.getLsbD 5 = false → s.cfg.mode.extractLsb' 6 2 = 0 → s.cfg.mode.extractLsb' 1 2 ≠ 3 →
      ∃ t, exec .loopUpdate s = .next t)

/-- LOCK.EVAL (R170 to R174): the two metrics, the locked state exactly when the lock metric is strictly above the
threshold, and an event only on a change of it. `NUMFAULT` and the record on a value that is not finite (R239, log 26). -/
def Obligations.LockEvalSetsLockAndSignalsEdges : Prop :=
  ∀ s : State,
    let si2 := F32.mul s.loc.sI s.loc.sI
    let sq2 := F32.mul s.loc.sQ s.loc.sQ
    let lockM := F32.sub si2 sq2
    let qualM := if s.cfg.mode.getLsbD 0 = true then F32.add si2 sq2 else lockM
    let new := F32.gt lockM s.cfg.lockThr
    let raised : Bool := !F32.finite si2 || !F32.finite sq2 || !F32.finite lockM || !F32.finite qualM
    exec .lockEval s =
      .next { s with
        loop := { s.loop with lockM := lockM, qualM := qualM }
        dec := { s.dec with locked := new }
        out := s.out ++
          (if s.dec.locked = false ∧ new = true then [.event .lockAcq]
            else if s.dec.locked = true ∧ new = false then [.event (.lockLost lockM)] else [])
        numFault := s.numFault || raised
        recorded := s.recorded.or (if raised then some .numericFault else none)
        ph := s.ph + 1 }

/-- DEC.STEP does nothing on a tick that is not locked, does not exceed the amplitude threshold, or whose sign is the
recorded one (R186, R187, R188). -/
def Obligations.DecStepIsDormant : Prop :=
  ∀ s : State,
    s.dec.locked = false ∨ F32.gt (F32.abs s.loc.sI) s.cfg.ampThr = false ∨
      (if F32.gt s.loc.sI 0 = true then Sign.pos else Sign.neg) = s.dec.prevSign →
    exec .decStep s = .next { s with ph := s.ph + 1 }

/-- DEC.STEP on a transition, the table of R194: `SHORT` before, the interval, `SHORT` after, the events in order; `WC`
becomes 0 and `PREV_SIGN` the sign. -/
def Obligations.DecStepDecodesTransitions : Prop :=
  ∀ s : State,
    let sign := if F32.gt s.loc.sI 0 = true then Sign.pos else Sign.neg
    s.dec.locked = true → F32.gt (F32.abs s.loc.sI) s.cfg.ampThr = true → sign ≠ s.dec.prevSign →
    let after := fun (short : Bool) (es : List (Event V)) =>
      ({ s with osc := { s.osc with wc := 0 }, dec := { s.dec with short := short, prevSign := sign },
                out := s.out ++ es.map .event, ph := s.ph + 1 } : State)
    exec .decStep s =
      .next
        (if 2 * s.osc.wc ≤ s.drv.halfThr2 then
          (if s.dec.short = false then after true [] else after false [.bit false])
        else if s.dec.short = false then after false [.bit true] else after false [.bit true, .anomaly])

/-- TLM.EMIT (R216): the record of the values at the end of the tick is latched and sent, and the tick is over. -/
def Obligations.TlmEmitLatchesAndSendsTheRecord : Prop :=
  ∀ s : State,
    let r : Telemetry V :=
      { tPeriod := s.osc.tPeriod, tPhase := s.osc.tPhase, sample := s.loc.x, i := s.loc.i, q := s.loc.q,
        lock := s.loop.lockM, qual := s.loop.qualM, sI := s.loc.sI, sQ := s.loc.sQ, err := s.loc.err,
        errInt := s.loop.errInt, errC := s.loc.errC }
    exec .tlmEmit s =
      .next { s with tlm := r, out := s.out ++ [.telemetry r], ph := 0, cmdReady := true,
                     loc := TickLocal.none }

/-- A sample that is not finite raises NumericFault at MIX (R208, R137) and a zero tracked period at NCO.STEP (R135): the
flag is set, and the fault recorded if it is the command's first. The record (R239; the model's own field, log 26): a TICK
begins without one, no micro-operation replaces one, and one that makes a record has set the flag of its fault, while one
that leaves none has set no flag. -/
def Obligations.NumericFaultIsRecorded : Prop :=
  (∀ s t : State,
    (F32.finite s.loc.x = false → exec .mix s = .next t →
      t.numFault = true ∧ t.recorded = s.recorded.or (some .numericFault)) ∧
    (F32.mag s.osc.tPeriod = 0 → exec .ncoStep s = .next t →
      t.numFault = true ∧ t.recorded = s.recorded.or (some .numericFault))) ∧
  (∀ (s : State) (idx : CsrIndex) (data : BitVec 32), s.life = .running →
    exec (.tick idx data) s = exec (.tick idx data) { s with recorded := none }) ∧
  (∀ (i : Instr) (s t : State), (∃ ph, encode i = .phase ph) → exec i s = .next t →
    (s.recorded ≠ none → t.recorded = s.recorded) ∧
    (s.recorded = none →
      (t.recorded = none ∧ t.numFault = s.numFault ∧ t.wcOvf = s.wcOvf) ∨
      (t.recorded = some .numericFault ∧ t.numFault = true) ∨
      (t.recorded = some .counterOverflow ∧ t.wcOvf = true ∧ i = .ncoStep)))

/-! ### Properties of the filter and the numerics -/

/-- Steady state (R119). In exact arithmetic the output is the input times the sum of the coefficients from the N-th
call with a constant input on, whatever the history held; on the machine it is the sum in the order of R111. `firCalls` are
calls of the filter that FIR.I and FIR.Q run. -/
def Obligations.FilterReachesItsSteadyState : Prop :=
  (∀ (coef hist : Memory ℝ) (len cur : Nat) (c : ℝ), hist.canonical realNum.zero → cur < len → ∀ k, len ≤ k + 1 →
    let p := firCalls realNum coef len (hist, cur) (fun _ => c) k
    (fir realNum coef p.1 len p.2 c).y = c * ∑ j ∈ Finset.range len, coef.get realNum.zero j) ∧
  (∀ (coef hist : Memory) (len cur : Nat) (c : V), hist.wf → cur < len → ∀ k, len ≤ k + 1 →
    let p := firCalls F32.ieee32 coef len (hist, cur) (fun _ => c) k
    (fir F32.ieee32 coef p.1 len p.2 c).y =
      (List.range len).foldl (fun acc j => F32.add acc (F32.mul (coef.read j) c)) 0)

/-- The formula of R110, in exact arithmetic: the output of call `t` weighs the newest input with coefficient 0 and the
input `k` calls before it with coefficient `k`; an input from before the first call is what the history held. The call is
what FIR.I and FIR.Q run on the registers. -/
def Obligations.FilterIsAConvolution : Prop :=
  (∀ (coef hist : Memory ℝ) (u : Nat → ℝ) (len cur t : Nat), hist.canonical realNum.zero → cur < len →
    let p := firCalls realNum coef len (hist, cur) u t
    (fir realNum coef p.1 len p.2 (u t)).y =
      ∑ k ∈ Finset.range len,
        coef.get realNum.zero k *
          (if k ≤ t then u (t - k) else hist.get realNum.zero ((cur + len - (k - t)) % len))) ∧
  (∀ s : State ℝ, s.curI < s.cfg.nTaps.toNat → ∃ t, Impl.real.exec .firI s = .next t ∧
    (t.hi, t.curI) = firCalls realNum s.coef s.cfg.nTaps.toNat (s.hi, s.curI) (fun _ => s.loc.mI) 1 ∧
    t.loc.sI = (fir realNum s.coef s.hi s.cfg.nTaps.toNat s.curI s.loc.mI).y) ∧
  (∀ s : State ℝ, s.curQ < s.cfg.nTaps.toNat → ∃ t, Impl.real.exec .firQ s = .next t ∧
    (t.hq, t.curQ) = firCalls realNum s.coef s.cfg.nTaps.toNat (s.hq, s.curQ) (fun _ => s.loc.mQ) 1 ∧
    t.loc.sQ = (fir realNum s.coef s.hq s.cfg.nTaps.toNat s.curQ s.loc.mQ).y)

/-- The designed coefficients are symmetric about the centre, in exact arithmetic (R120). -/
def Obligations.DesignedCoefficientsAreSymmetric : Prop :=
  ∀ (fc : ℝ) (len i : Nat), i < len →
    coefficient realNum fc len i = coefficient realNum fc len (len - 1 - i)

/-- The rounding function (R9): what `F32.round` gives for a sign, a significand and the exponent of its unit is the exact
value rounded to nearest, ties to even, and a zero keeps the sign. -/
def Obligations.RoundingIsToNearest : Prop :=
  ∀ (neg : Bool) (m : Nat) (e : Int),
    F32.IsRounded ((if neg then -1 else 1) * (m : ℝ) * (2 : ℝ) ^ e) (F32.round neg m e) ∧
    (F32.round neg m e).msb = neg

/-- The arithmetic of `NUM_IEEE32` (R9). Finite operands: sum, difference, product and quotient, and the images of
naturals and literals, are the exact results rounded to nearest, ties to even; the comparisons are those of the real
numbers. Signs of zeros: an exact zero sum is `-0` only for two `-0`; a product or quotient has the sign of its operands'
signs; the zero literal is `+0` (the model's choice, log 24). `fneg` flips and `fabs` clears the sign bit. With a NaN every
comparison is false and every result a NaN (which one is free, log 3). Infinities and zero divisors as IEEE 754 has them. -/
def Obligations.ArithmeticIsTheExactResultRounded : Prop :=
  (∀ a b : V, F32.finite a = true → F32.finite b = true →
    F32.IsRounded (F32.toReal a + F32.toReal b) (F32.add a b) ∧
    F32.IsRounded (F32.toReal a - F32.toReal b) (F32.sub a b) ∧
    F32.IsRounded (F32.toReal a * F32.toReal b) (F32.mul a b) ∧
    (F32.toReal b ≠ 0 → F32.IsRounded (F32.toReal a / F32.toReal b) (F32.div a b)) ∧
    (F32.toReal a + F32.toReal b = 0 → F32.add a b = if a.msb && b.msb then 0x80000000 else 0) ∧
    (F32.toReal a - F32.toReal b = 0 → F32.sub a b = if a.msb && !b.msb then 0x80000000 else 0) ∧
    (F32.mul a b).msb = (a.msb != b.msb) ∧
    (F32.toReal b ≠ 0 → (F32.div a b).msb = (a.msb != b.msb)) ∧
    (F32.gt a b = true ↔ F32.toReal b < F32.toReal a) ∧ (F32.ge a b = true ↔ F32.toReal b ≤ F32.toReal a) ∧
    (F32.eq a b = true ↔ F32.toReal a = F32.toReal b)) ∧
  (∀ k : Nat, F32.IsRounded (k : ℝ) (F32.ofNat k)) ∧
  (∀ (p : Int) (q : Nat), 0 < q → F32.IsRounded ((p : ℝ) / (q : ℝ)) (F32.ofLit p q)) ∧
  (∀ q : Nat, F32.ofLit 0 q = 0) ∧
  (∀ v : V,
    ((F32.neg v).msb = !v.msb ∧ (F32.abs v).msb = false) ∧
    (∀ k, k < 31 → (F32.neg v).getLsbD k = v.getLsbD k ∧ (F32.abs v).getLsbD k = v.getLsbD k) ∧
    (F32.finite v = true ↔ v.extractLsb' 23 8 ≠ 0xFF) ∧
    (F32.isNaN v = true ↔ v.extractLsb' 23 8 = 0xFF ∧ v.extractLsb' 0 23 ≠ 0)) ∧
  (∀ a b : V, F32.isNaN a = true ∨ F32.isNaN b = true →
    F32.gt a b = false ∧ F32.ge a b = false ∧ F32.eq a b = false ∧
    F32.isNaN (F32.add a b) = true ∧ F32.isNaN (F32.sub a b) = true ∧ F32.isNaN (F32.mul a b) = true ∧
    F32.isNaN (F32.div a b) = true) ∧
  (let inf := fun negative : Bool => if negative then (0xFF800000 : V) else 0x7F800000
   (∀ (a : V) (n : Bool), F32.finite a = true →
    (F32.gt (inf n) a = !n ∧ F32.gt a (inf n) = n ∧ F32.ge (inf n) a = !n ∧ F32.ge a (inf n) = n ∧
      F32.eq (inf n) a = false ∧ F32.eq a (inf n) = false) ∧
    F32.add (inf n) a = inf n ∧ F32.add a (inf n) = inf n ∧
    F32.sub (inf n) a = inf n ∧ F32.sub a (inf n) = inf (!n) ∧
    (F32.toReal a ≠ 0 → F32.mul (inf n) a = inf (n != a.msb) ∧ F32.mul a (inf n) = inf (n != a.msb)) ∧
    (F32.toReal a = 0 → F32.isNaN (F32.mul (inf n) a) = true ∧ F32.isNaN (F32.mul a (inf n)) = true) ∧
    F32.div (inf n) a = inf (n != a.msb) ∧
    F32.div a (inf n) = (if n != a.msb then 0x80000000 else 0)) ∧
   (∀ m n : Bool,
    F32.gt (inf m) (inf n) = (!m && n) ∧ F32.ge (inf m) (inf n) = (!m || n) ∧ F32.eq (inf m) (inf n) = (m == n) ∧
    (m = n → F32.add (inf m) (inf n) = inf m ∧ F32.isNaN (F32.sub (inf m) (inf n)) = true) ∧
    (m ≠ n → F32.isNaN (F32.add (inf m) (inf n)) = true ∧ F32.sub (inf m) (inf n) = inf m) ∧
    F32.mul (inf m) (inf n) = inf (m != n) ∧ F32.isNaN (F32.div (inf m) (inf n)) = true) ∧
   (∀ a b : V, F32.finite a = true → F32.finite b = true → F32.toReal b = 0 →
    (F32.toReal a ≠ 0 → F32.div a b = inf (a.msb != b.msb)) ∧
    (F32.toReal a = 0 → F32.isNaN (F32.div a b) = true)))

/-- What R9 states of sine and cosine, and nothing more: the two values at `+0`, and finite results of magnitude at
most 1 for finite arguments. -/
def Obligations.SineAndCosineMeetTheirBounds : Prop :=
  F32.cos 0 = 0x3F800000 ∧ F32.sin 0 = 0 ∧
  ∀ v : V, F32.finite v = true →
    F32.finite (F32.sin v) = true ∧ F32.gt (F32.abs (F32.sin v)) 0x3F800000 = false ∧
    F32.finite (F32.cos v) = true ∧ F32.gt (F32.abs (F32.cos v)) 0x3F800000 = false

/-- Faults of micro-operations in exact arithmetic (R9, R11, R23): under `NUM_REAL`, where every value is finite and the wave
counter has no bound, a micro-operation sets `NUMFAULT` only on a zero tracked period or a sample that is not finite, and
never `WCOVF`. Of micro-operations alone: DESIGN on a zero `SAMPLE_RATE` or `REF_PERIOD` sets `NUMFAULT` there too (R41,
log 8). -/
def Obligations.ExactArithmeticMicroOpsFaultOnlyOnZeroPeriodOrBadSample : Prop :=
  ∀ (i : Instr) (s t : State ℝ), (∃ ph, encode i = .phase ph) → Impl.real.exec i s = .next t →
    t.wcOvf = s.wcOvf ∧
    (t.numFault = true ↔
      s.numFault = true ∨ (i = .ncoStep ∧ s.osc.tPeriod = 0) ∨ (i = .acq ∧ F32.finite s.loc.data = false))

/-! ### Whole-machine rules -/

/-- The machine takes its implementation as an argument (R3, R7): `exec` and `step` are the operation and the step of the
default, `NUM_IEEE32` with the default parameters. -/
def Obligations.MachineIsTheDefaultImplementation : Prop :=
  (∀ (i : Instr) (s : State), exec i s = Impl.ieee32.exec i s) ∧
  (∀ s : State, step s = Impl.ieee32.step s) ∧ State.reset = State.initial Impl.ieee32.num

/-- The level outputs (R94): `halted` is high exactly in HALTED, `exit_code` is `EXIT` as CSRR shows it, `locked` is the
`LOCKED` bit of `STATUS`. -/
def Obligations.LevelOutputsMirrorRegisters : Prop :=
  ∀ s : State,
    (s.haltedPin = true ↔ s.life = .halted) ∧ (s.haltedPin = true ↔ (s.csrRead 0x20).extractLsb' 0 2 = 2) ∧
    s.exitCodePin = s.exitCode ∧ (s.csrRead 0x22).toNat = s.exitCodePin.toNat ∧
    s.lockedPin = s.dec.locked ∧ s.lockedPin = (s.csrRead 0x20).getLsbD 2

/-- Clean runs (R225, R235, R236). A run is faulted when a sticky flag is set. An operation that comes to a clean end is
EOS in a run that is not faulted, and EOS there does come to one; HALTED with `EXIT = 0` is entered by EOS alone. In a run
a clean end is HALTED without a cause and without a sticky flag. -/
def Obligations.CleanEndsAreThoseOfEos : Prop :=
  (∀ s : State, s.faulted = true ↔ s.numFault = true ∨ s.wcOvf = true) ∧
  (∀ (i : Instr) (s t : State), exec i s = .next t → s.life ≠ .halted → t.life = .halted →
    (t.exitCode = 0 ↔ ∃ idx data, i = .eos idx data) ∧
    (t.endedCleanly = true ↔ (∃ idx data, i = .eos idx data) ∧ s.faulted = false)) ∧
  (∀ (s : State) (idx : CsrIndex) (data : BitVec 32), s.life = .running → s.faulted = false →
    ∃ t, exec (.eos idx data) s = .next t ∧ t.endedCleanly = true) ∧
  (∀ s : State, s.Inv →
    (s.endedCleanly = true ↔
      s.life = .halted ∧ s.cause = .none ∧ s.numFault = false ∧ s.wcOvf = false))

/-- The invariant holds at reset. -/
def Obligations.InvariantHoldsAtReset : Prop := State.reset.Inv

/-- Every step keeps the invariant: canonical memories in range, cursors in range and equal, the sequencer's phase, what
DESIGN leaves, the exit status, the flag or cause of the recorded fault (log 26), the bound of the wave counter. -/
def Obligations.EveryStepKeepsTheInvariant : Prop :=
  ∀ s t : State, s.Inv → step s = .next t → t.Inv

/-- In a state that meets the invariant the only stop is DESIGN on an ill-formed configuration: no sample, no numeric
value and no command word ends a run. This rests on the model's choices: reserved and unadmitted commands are ignored,
where R86, R224, U10 and U11 let a model refuse them (log 6); numeric faults and a full counter are flags on which the
machine goes on (log 4, log 5); a zero divisor does not stop DESIGN (log 8). -/
def Obligations.OnlyIllFormedDesignStopsARun : Prop :=
  ∀ s : State, s.Inv → (∃ t, step s = .next t) ∨
    (step s = .refused .illFormedConfig ∧ s.life = .unconfigured ∧
      ∃ w rest idx data, s.cmds = w :: rest ∧ decodeCommand w = .ok (.design idx data))

/-- Configuration, derived constants and coefficients change only in UNCONFIGURED (R12): from DESIGN to the next RESET
every step leaves them alone. -/
def Obligations.ConfigurationIsFrozenWhileRunning : Prop :=
  ∀ s t : State, s.life ≠ .unconfigured → step s = .next t → t.life ≠ .unconfigured →
    t.cfg = s.cfg ∧ t.drv = s.drv ∧ t.coef = s.coef

/-- The lifecycle's transitions (R245): RESET from anywhere; DESIGN to RUNNING, or to HALTED on a ConfigurationError;
EOS and SERR from RUNNING to HALTED. -/
def Obligations.LifecycleMovesAsListed : Prop :=
  ∀ (i : Instr) (s t : State), exec i s = .next t → t.life ≠ s.life →
    ((∃ idx data, i = .reset idx data) ∧ t.life = .unconfigured) ∨
    ((∃ idx data, i = .design idx data) ∧ s.life = .unconfigured ∧
      (t.life = .running ∨ (t.life = .halted ∧ t.cause = .configurationError))) ∨
    ((∃ idx data, i = .eos idx data ∨ i = .serr idx data) ∧ s.life = .running ∧ t.life = .halted)

/-- The sticky flags are cleared by RESET alone (R41, R42): a step that clears one leaves the state of RESET. -/
def Obligations.FaultFlagsAreSticky : Prop :=
  ∀ s t : State, step s = .next t →
    (s.numFault = true ∧ t.numFault = false) ∨ (s.wcOvf = true ∧ t.wcOvf = false) →
    t = { State.reset with cmds := t.cmds, rst := t.rst, out := t.out } ∧ t.out = s.out

/-- The wave counter (R23, R132, R189): an operation leaves it, adds one, or sets it to zero; only NCO.STEP and TICK raise
it, and only the decoder's reset, in DEC.STEP or TICK, lowers it, apart from the start-up that RESET and DESIGN are. -/
def Obligations.WaveCounterMovesByOneOrToZero : Prop :=
  ∀ (i : Instr) (s t : State), exec i s = .next t →
    (t.osc.wc = s.osc.wc ∨ t.osc.wc = s.osc.wc + 1 ∨ t.osc.wc = 0) ∧
    (t.osc.wc < s.osc.wc → t.osc.wc = 0 ∧
      (i = .decStep ∨ ∃ idx data, i = .tick idx data ∨ i = .design idx data ∨ i = .reset idx data)) ∧
    (s.osc.wc < t.osc.wc → i = .ncoStep ∨ ∃ idx data, i = .tick idx data)

/-- Which micro-operation writes which register (the table of R33): each register of the datapath has one writer among
them, and none writes configuration, constants, coefficients or the lifecycle. -/
def Obligations.MicroOperationsWriteOnlyTheirRegisters : Prop :=
  ∀ (i : Instr) (s t : State), (∃ ph, encode i = .phase ph) → exec i s = .next t →
    (i ≠ .ncoStep → t.osc.acc = s.osc.acc ∧ t.wcOvf = s.wcOvf) ∧
    (i ≠ .ncoStep → i ≠ .decStep → t.osc.wc = s.osc.wc) ∧
    (i ≠ .loopUpdate → t.osc.tPeriod = s.osc.tPeriod ∧ t.osc.tPhase = s.osc.tPhase ∧
      t.loop.errInt = s.loop.errInt) ∧
    (i ≠ .lockEval → t.loop.lockM = s.loop.lockM ∧ t.loop.qualM = s.loop.qualM ∧
      t.dec.locked = s.dec.locked) ∧
    (i ≠ .decStep → t.dec.prevSign = s.dec.prevSign ∧ t.dec.short = s.dec.short) ∧
    (i ≠ .firI → t.hi = s.hi ∧ t.curI = s.curI) ∧
    (i ≠ .firQ → t.hq = s.hq ∧ t.curQ = s.curQ) ∧
    (i ≠ .tlmEmit → t.tlm = s.tlm ∧ t.cmdReady = s.cmdReady) ∧
    (i ≠ .lockEval → i ≠ .decStep → i ≠ .tlmEmit → t.out = s.out) ∧
    t.cfg = s.cfg ∧ t.drv = s.drv ∧ t.coef = s.coef ∧ t.life = s.life ∧ t.cause = s.cause ∧
    t.exitCode = s.exitCode ∧ t.cmds = s.cmds ∧ t.rst = s.rst
end

