-- ==== Sys2Proof/Laws/F32.lean ====
section
/-! SUPPORT. Small laws of the binary32 operations: the record's projections, and what infinities, NaNs and packed
magnitudes are. -/

namespace Sys2Proof.Machine.F32

@[simp] theorem ieee32_ofNat : ieee32.ofNat = ofNat := rfl
@[simp] theorem ieee32_fadd : ieee32.fadd = add := rfl
@[simp] theorem ieee32_fsub : ieee32.fsub = sub := rfl
@[simp] theorem ieee32_fmul : ieee32.fmul = mul := rfl
@[simp] theorem ieee32_fdiv : ieee32.fdiv = div := rfl
@[simp] theorem ieee32_fneg : ieee32.fneg = neg := rfl
@[simp] theorem ieee32_fabs : ieee32.fabs = abs := rfl
@[simp] theorem ieee32_fsin : ieee32.fsin = sin := rfl
@[simp] theorem ieee32_fcos : ieee32.fcos = cos := rfl
@[simp] theorem ieee32_fgt : ieee32.fgt = gt := rfl
@[simp] theorem ieee32_fge : ieee32.fge = ge := rfl
@[simp] theorem ieee32_feq : ieee32.feq = eq := rfl
@[simp] theorem ieee32_finite : ieee32.finite = finite := rfl
@[simp] theorem ieee32_pi : ieee32.pi = piImage := rfl
@[simp] theorem ieee32_ofSample (w : BitVec 32) : ieee32.ofSample w = w := rfl

@[simp] theorem ieee32_ofLit : ieee32.ofLit = ofLit := rfl

@[simp] theorem ofNat_zero : ofNat 0 = 0 := by decide

/-- The datapath's zero is `+0`. -/
@[simp] theorem ieee32_zero : ieee32.zero = 0 := by decide

/-- `TWO_PI` is the image R9 gives. -/
@[simp] theorem ieee32_twoPi : ieee32.twoPi = 0x40C90FDB := by decide

/-- The NaN an operation makes is a NaN. -/
theorem isNaN_nanOf (op : Config.FpOp) (a b : V) : isNaN (nanOf op a b) = true := by
  unfold nanOf
  split
  · assumption
  · decide

/-- A NaN is not finite. -/
theorem finite_of_isNaN {v : V} (h : isNaN v = true) : finite v = false := by
  simp only [isNaN, finite, decide_eq_true_eq, decide_eq_false_iff_not] at h ⊢
  omega

theorem finite_nanOf (op : Config.FpOp) (a b : V) : finite (nanOf op a b) = false :=
  finite_of_isNaN (isNaN_nanOf op a b)

/-- The magnitude of a packed value. -/
theorem mag_pack (s : Bool) {m : Nat} (h : m < 2 ^ 31) : mag (pack s m) = m := by
  cases s <;> simp only [pack, mag, BitVec.toNat_ofNat, Bool.false_eq_true, if_true, if_false] <;> omega

/-- Comparison with a NaN is false (R9). -/
theorem gt_of_isNaN {a b : V} (h : isNaN a = true ∨ isNaN b = true) : gt a b = false := by
  rcases h with h | h <;> simp [gt, h]

/-- Nothing is strictly above itself. -/
@[simp] theorem gt_self (a : V) : gt a a = false := by simp [gt]

/-- Two values are not each strictly above the other. -/
theorem gt_asymm {a b : V} (h : gt a b = true) : gt b a = false := by
  simp only [gt, Bool.and_eq_true, decide_eq_true_eq] at h
  simp only [gt, Bool.and_eq_false_iff, decide_eq_false_iff_not]
  right; omega

end Sys2Proof.Machine.F32

/-! ### The default implementation -/

namespace Sys2Proof.Machine

@[simp] theorem Impl.ieee32_num : Impl.ieee32.num = F32.ieee32 := rfl
@[simp] theorem Impl.ieee32_sampleDefined (w : BitVec 32) : Impl.ieee32.sampleDefined w = true := rfl
@[simp] theorem Impl.ieee32_wcBits : Impl.ieee32.wcBits = some Config.wcBits := rfl
@[simp] theorem Impl.ieee32_exitFailCode : Impl.ieee32.exitFailCode = Config.exitFailCode := rfl
@[simp] theorem Impl.ieee32_nMax : Impl.ieee32.nMax = Config.nMax := rfl

end Sys2Proof.Machine
end

