-- ==== Sys2Proof/Laws/Memory.lean ====
section
/-! SUPPORT. The laws of the element memories: read after write, the canonical form, and the range of indices. -/

namespace Sys2Proof.Machine.Memory

variable {α : Type} {z : α}

@[simp] theorem get_nil (a : Nat) : get z [] a = z := rfl

theorem get_cons_list (b : Nat) (w : α) (t : Memory α) (a : Nat) :
    get z ((b, w) :: t) a = if a = b then w else get z t a := rfl

/-- An index below every listed one reads `z`. -/
theorem get_of_lt {m : Memory α} {a : Nat} (h : ∀ c ∈ m, a < c.1) : get z m a = z := by
  induction m with
  | nil => rfl
  | cons c t ih =>
    obtain ⟨b, w⟩ := c
    have hb : a < b := h (b, w) (by simp)
    rw [get_cons_list, if_neg (by omega), ih fun c hc => h c (by simp [hc])]

theorem get_cons [DecidableEq α] {m : Memory α} {a : Nat} {v : α} (h : ∀ c ∈ m, a < c.1) (b : Nat) :
    get z (cons z a v m) b = if b = a then v else get z m b := by
  unfold cons
  split
  · subst_vars
    split
    · subst_vars; exact get_of_lt h
    · rfl
  · rfl

theorem canonical_tail {c : Nat × α} {t : Memory α} (h : canonical z (c :: t)) : canonical z t :=
  ⟨(List.pairwise_cons.1 h.1).2, fun d hd => h.2 d (by simp [hd])⟩

theorem canonical_cons [DecidableEq α] {a : Nat} {v : α} {m : Memory α} (hm : canonical z m) (h : ∀ c ∈ m, a < c.1) :
    canonical z (cons z a v m) := by
  unfold cons
  split
  · exact hm
  · rename_i hv
    refine ⟨List.pairwise_cons.2 ⟨h, hm.1⟩, ?_⟩
    intro c hc
    rcases List.mem_cons.1 hc with rfl | hc
    · exact hv
    · exact hm.2 c hc

theorem mem_cons [DecidableEq α] {a : Nat} {v : α} {m : Memory α} {c : Nat × α} (h : c ∈ cons z a v m) :
    c = (a, v) ∨ c ∈ m := by
  unfold cons at h
  split at h
  · exact .inr h
  · exact List.mem_cons.1 h

/-- A listed index after a write was listed before or is the one written. -/
theorem mem_put [DecidableEq α] {m : Memory α} {a : Nat} {v : α} {c : Nat × α} (h : c ∈ put z m a v) :
    c.1 = a ∨ c ∈ m := by
  induction m with
  | nil =>
    rcases mem_cons h with rfl | h
    · exact .inl rfl
    · exact .inr h
  | cons d t ih =>
    obtain ⟨b, w⟩ := d
    simp only [put] at h
    split at h
    · rcases mem_cons h with rfl | h
      · exact .inl rfl
      · exact .inr h
    · split at h
      · rcases mem_cons h with rfl | h
        · exact .inl rfl
        · exact .inr (by simp [h])
      · rcases List.mem_cons.1 h with rfl | h
        · exact .inr (by simp)
        · rcases ih h with h | h
          · exact .inl h
          · exact .inr (by simp [h])

/-- A write keeps the canonical form. -/
theorem canonical_put [DecidableEq α] {m : Memory α} (hm : canonical z m) (a : Nat) (v : α) :
    canonical z (put z m a v) := by
  induction m with
  | nil => exact canonical_cons hm (by simp)
  | cons d t ih =>
    obtain ⟨b, w⟩ := d
    have hb : ∀ c ∈ t, b < c.1 := (List.pairwise_cons.1 hm.1).1
    simp only [put]
    split
    · rename_i hab
      refine canonical_cons hm fun c hc => ?_
      rcases List.mem_cons.1 hc with rfl | hc
      · exact hab
      · exact lt_trans hab (hb c hc)
    · split
      · rename_i hab
        exact canonical_cons (canonical_tail hm) fun c hc => hab ▸ hb c hc
      · have ht := ih (canonical_tail hm)
        refine ⟨List.pairwise_cons.2 ⟨fun c hc => ?_, ht.1⟩, fun c hc => ?_⟩
        · rcases mem_put hc with h | h
          · simp only [h]; omega
          · exact hb c h
        · rcases List.mem_cons.1 hc with rfl | hc
          · exact hm.2 _ (by simp)
          · exact ht.2 c hc

/-- Read after write: the element written, and every other as before. -/
theorem get_put [DecidableEq α] {m : Memory α} (hm : canonical z m) (a : Nat) (v : α) (b : Nat) :
    get z (put z m a v) b = if b = a then v else get z m b := by
  induction m with
  | nil => exact get_cons (by simp) b
  | cons d t ih =>
    obtain ⟨e, w⟩ := d
    have he : ∀ c ∈ t, e < c.1 := (List.pairwise_cons.1 hm.1).1
    simp only [put]
    split
    · rename_i hae
      refine get_cons (fun c hc => ?_) b
      rcases List.mem_cons.1 hc with rfl | hc
      · exact hae
      · exact lt_trans hae (he c hc)
    · split
      · rename_i hae
        rw [get_cons fun c hc => hae ▸ he c hc, get_cons_list]
        split
        · rfl
        · rw [if_neg (by omega)]
      · rw [get_cons_list, ih (canonical_tail hm), get_cons_list]
        split
        · rw [if_neg (by omega)]
        · rfl

theorem canonical_clear {m : Memory α} (hm : canonical z m) (n : Nat) : canonical z (clear m n) :=
  ⟨hm.1.filter _, fun c hc => hm.2 c (List.mem_filter.1 hc).1⟩

@[simp] theorem clear_nil (n : Nat) : clear ([] : Memory α) n = [] := rfl

/-- Clearing makes the first `n` elements `z` and leaves the others. -/
theorem get_clear {m : Memory α} (n a : Nat) :
    get z (clear m n) a = if a < n then z else get z m a := by
  induction m with
  | nil => simp [clear]
  | cons d t ih =>
    obtain ⟨b, w⟩ := d
    simp only [clear, List.filter_cons, decide_eq_true_eq] at ih ⊢
    by_cases hb : n ≤ b
    · rw [if_pos hb, get_cons_list, ih, get_cons_list]
      split
      · rw [if_neg (by omega)]
      · rfl
    · rw [if_neg hb, ih, get_cons_list]
      split
      · rfl
      · rw [if_neg (by omega)]

/-- Two canonical memories that read alike are equal data. -/
theorem ext_of_get {m m' : Memory α} (hm : canonical z m) (hm' : canonical z m')
    (h : ∀ a, get z m a = get z m' a) : m = m' := by
  induction m generalizing m' with
  | nil =>
    cases m' with
    | nil => rfl
    | cons d t =>
      have := h d.1
      rw [show d = (d.1, d.2) from rfl, get_cons_list, if_pos rfl] at this
      exact absurd this.symm (hm'.2 d (by simp))
  | cons c t ih =>
    obtain ⟨a, v⟩ := c
    have ha : ∀ c ∈ t, a < c.1 := (List.pairwise_cons.1 hm.1).1
    have hv : v ≠ z := hm.2 (a, v) (by simp)
    cases m' with
    | nil =>
      have := h a
      rw [get_cons_list, if_pos rfl] at this
      exact absurd this hv
    | cons d t' =>
      obtain ⟨b, w⟩ := d
      have hb : ∀ c ∈ t', b < c.1 := (List.pairwise_cons.1 hm'.1).1
      have hw : w ≠ z := hm'.2 (b, w) (by simp)
      have hab : a = b := by
        rcases lt_trichotomy a b with hlt | heq | hlt
        · have := h a
          rw [get_cons_list, if_pos rfl, get_cons_list, if_neg (by omega),
            get_of_lt fun c hc => lt_trans hlt (hb c hc)] at this
          exact absurd this hv
        · exact heq
        · have := h b
          rw [get_cons_list, if_neg (by omega), get_cons_list, if_pos rfl,
            get_of_lt fun c hc => lt_trans hlt (ha c hc)] at this
          exact absurd this.symm hw
      subst hab
      have hvw : v = w := by
        have := h a
        rwa [get_cons_list, if_pos rfl, get_cons_list, if_pos rfl] at this
      subst hvw
      congr 1
      refine ih (canonical_tail hm) (canonical_tail hm') fun k => ?_
      by_cases hk : k = a
      · subst hk; rw [get_of_lt ha, get_of_lt hb]
      · have := h k
        rwa [get_cons_list, if_neg hk, get_cons_list, if_neg hk] at this

/-- Writing designed coefficients keeps the canonical form. -/
theorem canonical_writeCoefs [DecidableEq α] {n : Num α} {m : Memory α} (hm : canonical n.zero m) (fc : α)
    (len k : Nat) : canonical n.zero (writeCoefs n fc len m k) := by
  induction k with
  | zero => exact hm
  | succ k ih => exact canonical_put ih k _

/-- What the coefficient memory holds after DESIGN wrote its first `k` elements. -/
theorem get_writeCoefs [DecidableEq α] {n : Num α} {m : Memory α} (hm : canonical n.zero m) (fc : α)
    (len k a : Nat) :
    get n.zero (writeCoefs n fc len m k) a = if a < k then coefficient n fc len a else get n.zero m a := by
  induction k with
  | zero => simp [writeCoefs]
  | succ k ih =>
    rw [writeCoefs, get_put (canonical_writeCoefs hm fc len k), ih]
    by_cases h1 : a = k
    · subst h1; simp
    · by_cases h2 : a < k
      · rw [if_neg h1, if_pos h2, if_pos (by omega)]
      · rw [if_neg h1, if_neg h2, if_neg (by omega)]

/-- A listed index of the coefficient memory was listed before or is one of those written. -/
theorem mem_writeCoefs [DecidableEq α] {n : Num α} {m : Memory α} {fc : α} {len k : Nat} {c : Nat × α}
    (h : c ∈ writeCoefs n fc len m k) : c.1 < k ∨ c ∈ m := by
  induction k with
  | zero => exact .inr h
  | succ k ih =>
    rcases mem_put h with h | h
    · exact .inl (by omega)
    · exact (ih h).imp (by omega) id

/-! ### Under the default numerics -/

/-- A write keeps the canonical form. -/
theorem wf_write {m : Memory} (hm : m.wf) (a : Nat) (v : V) : (m.write a v).wf := canonical_put hm a v

/-- Read after write: the element written, and every other as before. -/
theorem read_write {m : Memory} (hm : m.wf) (a : Nat) (v : V) (b : Nat) :
    (m.write a v).read b = if b = a then v else m.read b := get_put hm a v b

/-- Clearing keeps the canonical form. -/
theorem wf_clear {m : Memory} (hm : m.wf) (n : Nat) : Memory.wf (m.clear n) := canonical_clear hm n

/-- Clearing makes the first `n` elements `+0` and leaves the others. -/
theorem read_clear (m : Memory) (n a : Nat) :
    Memory.read (m.clear n) a = if a < n then 0 else m.read a := get_clear n a

/-- Two canonical memories that read alike are equal data. -/
theorem ext_of_read {m m' : Memory} (hm : m.wf) (hm' : m'.wf) (h : ∀ a, m.read a = m'.read a) : m = m' :=
  ext_of_get hm hm' h

/-- Writing designed coefficients keeps the canonical form. -/
theorem wf_writeCoefs {m : Memory} (hm : m.wf) (fc : V) (len k : Nat) :
    Memory.wf (writeCoefs F32.ieee32 fc len m k) := canonical_writeCoefs (n := F32.ieee32) hm fc len k

/-- What the coefficient memory holds after DESIGN wrote its first `k` elements. -/
theorem read_writeCoefs {m : Memory} (hm : m.wf) (fc : V) (len k a : Nat) :
    Memory.read (writeCoefs F32.ieee32 fc len m k) a =
      if a < k then coefficient F32.ieee32 fc len a else m.read a :=
  get_writeCoefs (n := F32.ieee32) hm fc len k a

end Sys2Proof.Machine.Memory
end

