-- ==== Sys2Proof/Laws/State.lean ====
section
/-! SUPPORT. What each named update of the state leaves in each field, so that no proof unfolds a record
update. -/

namespace Sys2Proof.Machine.State

variable {α : Type} (s : State α)

/-! ### `send` -/

@[simp] theorem send_cfg (os : List (Output α)) : (s.send os).cfg = s.cfg := rfl
@[simp] theorem send_drv (os : List (Output α)) : (s.send os).drv = s.drv := rfl
@[simp] theorem send_osc (os : List (Output α)) : (s.send os).osc = s.osc := rfl
@[simp] theorem send_loop (os : List (Output α)) : (s.send os).loop = s.loop := rfl
@[simp] theorem send_dec (os : List (Output α)) : (s.send os).dec = s.dec := rfl
@[simp] theorem send_hi (os : List (Output α)) : (s.send os).hi = s.hi := rfl
@[simp] theorem send_hq (os : List (Output α)) : (s.send os).hq = s.hq := rfl
@[simp] theorem send_coef (os : List (Output α)) : (s.send os).coef = s.coef := rfl
@[simp] theorem send_curI (os : List (Output α)) : (s.send os).curI = s.curI := rfl
@[simp] theorem send_curQ (os : List (Output α)) : (s.send os).curQ = s.curQ := rfl
@[simp] theorem send_life (os : List (Output α)) : (s.send os).life = s.life := rfl
@[simp] theorem send_cause (os : List (Output α)) : (s.send os).cause = s.cause := rfl
@[simp] theorem send_exitCode (os : List (Output α)) : (s.send os).exitCode = s.exitCode := rfl
@[simp] theorem send_numFault (os : List (Output α)) : (s.send os).numFault = s.numFault := rfl
@[simp] theorem send_wcOvf (os : List (Output α)) : (s.send os).wcOvf = s.wcOvf := rfl
@[simp] theorem send_recorded (os : List (Output α)) : (s.send os).recorded = s.recorded := rfl
@[simp] theorem send_tlm (os : List (Output α)) : (s.send os).tlm = s.tlm := rfl
@[simp] theorem send_ph (os : List (Output α)) : (s.send os).ph = s.ph := rfl
@[simp] theorem send_cmdReady (os : List (Output α)) : (s.send os).cmdReady = s.cmdReady := rfl
@[simp] theorem send_loc (os : List (Output α)) : (s.send os).loc = s.loc := rfl
@[simp] theorem send_cmds (os : List (Output α)) : (s.send os).cmds = s.cmds := rfl
@[simp] theorem send_rst (os : List (Output α)) : (s.send os).rst = s.rst := rfl
@[simp] theorem send_out (os : List (Output α)) : (s.send os).out = s.out ++ os := rfl

/-! ### `emit` -/

@[simp] theorem emit_cfg (es : List (Event α)) : (s.emit es).cfg = s.cfg := rfl
@[simp] theorem emit_drv (es : List (Event α)) : (s.emit es).drv = s.drv := rfl
@[simp] theorem emit_osc (es : List (Event α)) : (s.emit es).osc = s.osc := rfl
@[simp] theorem emit_loop (es : List (Event α)) : (s.emit es).loop = s.loop := rfl
@[simp] theorem emit_dec (es : List (Event α)) : (s.emit es).dec = s.dec := rfl
@[simp] theorem emit_hi (es : List (Event α)) : (s.emit es).hi = s.hi := rfl
@[simp] theorem emit_hq (es : List (Event α)) : (s.emit es).hq = s.hq := rfl
@[simp] theorem emit_coef (es : List (Event α)) : (s.emit es).coef = s.coef := rfl
@[simp] theorem emit_curI (es : List (Event α)) : (s.emit es).curI = s.curI := rfl
@[simp] theorem emit_curQ (es : List (Event α)) : (s.emit es).curQ = s.curQ := rfl
@[simp] theorem emit_life (es : List (Event α)) : (s.emit es).life = s.life := rfl
@[simp] theorem emit_cause (es : List (Event α)) : (s.emit es).cause = s.cause := rfl
@[simp] theorem emit_exitCode (es : List (Event α)) : (s.emit es).exitCode = s.exitCode := rfl
@[simp] theorem emit_numFault (es : List (Event α)) : (s.emit es).numFault = s.numFault := rfl
@[simp] theorem emit_wcOvf (es : List (Event α)) : (s.emit es).wcOvf = s.wcOvf := rfl
@[simp] theorem emit_recorded (es : List (Event α)) : (s.emit es).recorded = s.recorded := rfl
@[simp] theorem emit_tlm (es : List (Event α)) : (s.emit es).tlm = s.tlm := rfl
@[simp] theorem emit_ph (es : List (Event α)) : (s.emit es).ph = s.ph := rfl
@[simp] theorem emit_cmdReady (es : List (Event α)) : (s.emit es).cmdReady = s.cmdReady := rfl
@[simp] theorem emit_loc (es : List (Event α)) : (s.emit es).loc = s.loc := rfl
@[simp] theorem emit_cmds (es : List (Event α)) : (s.emit es).cmds = s.cmds := rfl
@[simp] theorem emit_rst (es : List (Event α)) : (s.emit es).rst = s.rst := rfl
@[simp] theorem emit_out (es : List (Event α)) : (s.emit es).out = s.out ++ es.map .event := rfl

/-! ### `advance` -/

@[simp] theorem advance_cfg : s.advance.cfg = s.cfg := rfl
@[simp] theorem advance_drv : s.advance.drv = s.drv := rfl
@[simp] theorem advance_osc : s.advance.osc = s.osc := rfl
@[simp] theorem advance_loop : s.advance.loop = s.loop := rfl
@[simp] theorem advance_dec : s.advance.dec = s.dec := rfl
@[simp] theorem advance_hi : s.advance.hi = s.hi := rfl
@[simp] theorem advance_hq : s.advance.hq = s.hq := rfl
@[simp] theorem advance_coef : s.advance.coef = s.coef := rfl
@[simp] theorem advance_curI : s.advance.curI = s.curI := rfl
@[simp] theorem advance_curQ : s.advance.curQ = s.curQ := rfl
@[simp] theorem advance_life : s.advance.life = s.life := rfl
@[simp] theorem advance_cause : s.advance.cause = s.cause := rfl
@[simp] theorem advance_exitCode : s.advance.exitCode = s.exitCode := rfl
@[simp] theorem advance_numFault : s.advance.numFault = s.numFault := rfl
@[simp] theorem advance_wcOvf : s.advance.wcOvf = s.wcOvf := rfl
@[simp] theorem advance_recorded : s.advance.recorded = s.recorded := rfl
@[simp] theorem advance_tlm : s.advance.tlm = s.tlm := rfl
@[simp] theorem advance_ph : s.advance.ph = s.ph + 1 := rfl
@[simp] theorem advance_cmdReady : s.advance.cmdReady = s.cmdReady := rfl
@[simp] theorem advance_loc : s.advance.loc = s.loc := rfl
@[simp] theorem advance_cmds : s.advance.cmds = s.cmds := rfl
@[simp] theorem advance_rst : s.advance.rst = s.rst := rfl
@[simp] theorem advance_out : s.advance.out = s.out := rfl

/-! ### `beginTick` -/

@[simp] theorem beginTick_cfg (data : BitVec 32) : (s.beginTick data).cfg = s.cfg := rfl
@[simp] theorem beginTick_drv (data : BitVec 32) : (s.beginTick data).drv = s.drv := rfl
@[simp] theorem beginTick_osc (data : BitVec 32) : (s.beginTick data).osc = s.osc := rfl
@[simp] theorem beginTick_loop (data : BitVec 32) : (s.beginTick data).loop = s.loop := rfl
@[simp] theorem beginTick_dec (data : BitVec 32) : (s.beginTick data).dec = s.dec := rfl
@[simp] theorem beginTick_hi (data : BitVec 32) : (s.beginTick data).hi = s.hi := rfl
@[simp] theorem beginTick_hq (data : BitVec 32) : (s.beginTick data).hq = s.hq := rfl
@[simp] theorem beginTick_coef (data : BitVec 32) : (s.beginTick data).coef = s.coef := rfl
@[simp] theorem beginTick_curI (data : BitVec 32) : (s.beginTick data).curI = s.curI := rfl
@[simp] theorem beginTick_curQ (data : BitVec 32) : (s.beginTick data).curQ = s.curQ := rfl
@[simp] theorem beginTick_life (data : BitVec 32) : (s.beginTick data).life = s.life := rfl
@[simp] theorem beginTick_cause (data : BitVec 32) : (s.beginTick data).cause = s.cause := rfl
@[simp] theorem beginTick_exitCode (data : BitVec 32) : (s.beginTick data).exitCode = s.exitCode := rfl
@[simp] theorem beginTick_numFault (data : BitVec 32) : (s.beginTick data).numFault = s.numFault := rfl
@[simp] theorem beginTick_wcOvf (data : BitVec 32) : (s.beginTick data).wcOvf = s.wcOvf := rfl
@[simp] theorem beginTick_recorded (data : BitVec 32) : (s.beginTick data).recorded = none := rfl
@[simp] theorem beginTick_tlm (data : BitVec 32) : (s.beginTick data).tlm = s.tlm := rfl
@[simp] theorem beginTick_ph (data : BitVec 32) : (s.beginTick data).ph = 0 := rfl
@[simp] theorem beginTick_cmdReady (data : BitVec 32) : (s.beginTick data).cmdReady = false := rfl
@[simp] theorem beginTick_loc (data : BitVec 32) : (s.beginTick data).loc = { s.loc with data := data } := rfl
@[simp] theorem beginTick_cmds (data : BitVec 32) : (s.beginTick data).cmds = s.cmds := rfl
@[simp] theorem beginTick_rst (data : BitVec 32) : (s.beginTick data).rst = s.rst := rfl
@[simp] theorem beginTick_out (data : BitVec 32) : (s.beginTick data).out = s.out := rfl

/-! ### `endTick` -/

@[simp] theorem endTick_cfg (n : Num α) : (s.endTick n).cfg = s.cfg := rfl
@[simp] theorem endTick_drv (n : Num α) : (s.endTick n).drv = s.drv := rfl
@[simp] theorem endTick_osc (n : Num α) : (s.endTick n).osc = s.osc := rfl
@[simp] theorem endTick_loop (n : Num α) : (s.endTick n).loop = s.loop := rfl
@[simp] theorem endTick_dec (n : Num α) : (s.endTick n).dec = s.dec := rfl
@[simp] theorem endTick_hi (n : Num α) : (s.endTick n).hi = s.hi := rfl
@[simp] theorem endTick_hq (n : Num α) : (s.endTick n).hq = s.hq := rfl
@[simp] theorem endTick_coef (n : Num α) : (s.endTick n).coef = s.coef := rfl
@[simp] theorem endTick_curI (n : Num α) : (s.endTick n).curI = s.curI := rfl
@[simp] theorem endTick_curQ (n : Num α) : (s.endTick n).curQ = s.curQ := rfl
@[simp] theorem endTick_life (n : Num α) : (s.endTick n).life = s.life := rfl
@[simp] theorem endTick_cause (n : Num α) : (s.endTick n).cause = s.cause := rfl
@[simp] theorem endTick_exitCode (n : Num α) : (s.endTick n).exitCode = s.exitCode := rfl
@[simp] theorem endTick_numFault (n : Num α) : (s.endTick n).numFault = s.numFault := rfl
@[simp] theorem endTick_wcOvf (n : Num α) : (s.endTick n).wcOvf = s.wcOvf := rfl
@[simp] theorem endTick_recorded (n : Num α) : (s.endTick n).recorded = s.recorded := rfl
@[simp] theorem endTick_tlm (n : Num α) : (s.endTick n).tlm = s.tlm := rfl
@[simp] theorem endTick_ph (n : Num α) : (s.endTick n).ph = 0 := rfl
@[simp] theorem endTick_cmdReady (n : Num α) : (s.endTick n).cmdReady = true := rfl
@[simp] theorem endTick_loc (n : Num α) : (s.endTick n).loc = TickLocal.initial n := rfl
@[simp] theorem endTick_cmds (n : Num α) : (s.endTick n).cmds = s.cmds := rfl
@[simp] theorem endTick_rst (n : Num α) : (s.endTick n).rst = s.rst := rfl
@[simp] theorem endTick_out (n : Num α) : (s.endTick n).out = s.out := rfl

/-! ### `raiseFatal` -/

@[simp] theorem raiseFatal_cfg (p : Impl α) (c : Cause) : (s.raiseFatal p c).cfg = s.cfg := rfl
@[simp] theorem raiseFatal_drv (p : Impl α) (c : Cause) : (s.raiseFatal p c).drv = s.drv := rfl
@[simp] theorem raiseFatal_osc (p : Impl α) (c : Cause) : (s.raiseFatal p c).osc = s.osc := rfl
@[simp] theorem raiseFatal_loop (p : Impl α) (c : Cause) : (s.raiseFatal p c).loop = s.loop := rfl
@[simp] theorem raiseFatal_dec (p : Impl α) (c : Cause) : (s.raiseFatal p c).dec = s.dec := rfl
@[simp] theorem raiseFatal_hi (p : Impl α) (c : Cause) : (s.raiseFatal p c).hi = s.hi := rfl
@[simp] theorem raiseFatal_hq (p : Impl α) (c : Cause) : (s.raiseFatal p c).hq = s.hq := rfl
@[simp] theorem raiseFatal_coef (p : Impl α) (c : Cause) : (s.raiseFatal p c).coef = s.coef := rfl
@[simp] theorem raiseFatal_curI (p : Impl α) (c : Cause) : (s.raiseFatal p c).curI = s.curI := rfl
@[simp] theorem raiseFatal_curQ (p : Impl α) (c : Cause) : (s.raiseFatal p c).curQ = s.curQ := rfl
@[simp] theorem raiseFatal_life (p : Impl α) (c : Cause) : (s.raiseFatal p c).life = .halted := rfl
@[simp] theorem raiseFatal_cause (p : Impl α) (c : Cause) : (s.raiseFatal p c).cause = c := rfl
@[simp] theorem raiseFatal_exitCode (p : Impl α) (c : Cause) : (s.raiseFatal p c).exitCode = p.exitFailCode := rfl
@[simp] theorem raiseFatal_numFault (p : Impl α) (c : Cause) : (s.raiseFatal p c).numFault = s.numFault := rfl
@[simp] theorem raiseFatal_wcOvf (p : Impl α) (c : Cause) : (s.raiseFatal p c).wcOvf = s.wcOvf := rfl
@[simp] theorem raiseFatal_recorded (p : Impl α) (c : Cause) : (s.raiseFatal p c).recorded = s.recorded.or c.fault := rfl
@[simp] theorem raiseFatal_tlm (p : Impl α) (c : Cause) : (s.raiseFatal p c).tlm = s.tlm := rfl
@[simp] theorem raiseFatal_ph (p : Impl α) (c : Cause) : (s.raiseFatal p c).ph = 0 := rfl
@[simp] theorem raiseFatal_cmdReady (p : Impl α) (c : Cause) : (s.raiseFatal p c).cmdReady = s.cmdReady := rfl
@[simp] theorem raiseFatal_loc (p : Impl α) (c : Cause) : (s.raiseFatal p c).loc = s.loc := rfl
@[simp] theorem raiseFatal_cmds (p : Impl α) (c : Cause) : (s.raiseFatal p c).cmds = s.cmds := rfl
@[simp] theorem raiseFatal_rst (p : Impl α) (c : Cause) : (s.raiseFatal p c).rst = s.rst := rfl
@[simp] theorem raiseFatal_out (p : Impl α) (c : Cause) : (s.raiseFatal p c).out = s.out := rfl

/-! ### `restart` -/

@[simp] theorem restart_cfg (n : Num α) : (s.restart n).cfg = (State.initial n).cfg := rfl
@[simp] theorem restart_drv (n : Num α) : (s.restart n).drv = (State.initial n).drv := rfl
@[simp] theorem restart_osc (n : Num α) : (s.restart n).osc = (State.initial n).osc := rfl
@[simp] theorem restart_loop (n : Num α) : (s.restart n).loop = (State.initial n).loop := rfl
@[simp] theorem restart_dec (n : Num α) : (s.restart n).dec = (State.initial n).dec := rfl
@[simp] theorem restart_hi (n : Num α) : (s.restart n).hi = (State.initial n).hi := rfl
@[simp] theorem restart_hq (n : Num α) : (s.restart n).hq = (State.initial n).hq := rfl
@[simp] theorem restart_coef (n : Num α) : (s.restart n).coef = (State.initial n).coef := rfl
@[simp] theorem restart_curI (n : Num α) : (s.restart n).curI = (State.initial n).curI := rfl
@[simp] theorem restart_curQ (n : Num α) : (s.restart n).curQ = (State.initial n).curQ := rfl
@[simp] theorem restart_life (n : Num α) : (s.restart n).life = (State.initial n).life := rfl
@[simp] theorem restart_cause (n : Num α) : (s.restart n).cause = (State.initial n).cause := rfl
@[simp] theorem restart_exitCode (n : Num α) : (s.restart n).exitCode = (State.initial n).exitCode := rfl
@[simp] theorem restart_numFault (n : Num α) : (s.restart n).numFault = (State.initial n).numFault := rfl
@[simp] theorem restart_wcOvf (n : Num α) : (s.restart n).wcOvf = (State.initial n).wcOvf := rfl
@[simp] theorem restart_recorded (n : Num α) : (s.restart n).recorded = (State.initial n).recorded := rfl
@[simp] theorem restart_tlm (n : Num α) : (s.restart n).tlm = (State.initial n).tlm := rfl
@[simp] theorem restart_ph (n : Num α) : (s.restart n).ph = (State.initial n).ph := rfl
@[simp] theorem restart_cmdReady (n : Num α) : (s.restart n).cmdReady = (State.initial n).cmdReady := rfl
@[simp] theorem restart_loc (n : Num α) : (s.restart n).loc = (State.initial n).loc := rfl
@[simp] theorem restart_cmds (n : Num α) : (s.restart n).cmds = s.cmds := rfl
@[simp] theorem restart_rst (n : Num α) : (s.restart n).rst = s.rst := rfl
@[simp] theorem restart_out (n : Num α) : (s.restart n).out = s.out := rfl

/-! ### `pinReset` -/

@[simp] theorem pinReset_cfg (n : Num α) : (s.pinReset n).cfg = (State.initial n).cfg := rfl
@[simp] theorem pinReset_drv (n : Num α) : (s.pinReset n).drv = (State.initial n).drv := rfl
@[simp] theorem pinReset_osc (n : Num α) : (s.pinReset n).osc = (State.initial n).osc := rfl
@[simp] theorem pinReset_loop (n : Num α) : (s.pinReset n).loop = (State.initial n).loop := rfl
@[simp] theorem pinReset_dec (n : Num α) : (s.pinReset n).dec = (State.initial n).dec := rfl
@[simp] theorem pinReset_hi (n : Num α) : (s.pinReset n).hi = (State.initial n).hi := rfl
@[simp] theorem pinReset_hq (n : Num α) : (s.pinReset n).hq = (State.initial n).hq := rfl
@[simp] theorem pinReset_coef (n : Num α) : (s.pinReset n).coef = (State.initial n).coef := rfl
@[simp] theorem pinReset_curI (n : Num α) : (s.pinReset n).curI = (State.initial n).curI := rfl
@[simp] theorem pinReset_curQ (n : Num α) : (s.pinReset n).curQ = (State.initial n).curQ := rfl
@[simp] theorem pinReset_life (n : Num α) : (s.pinReset n).life = (State.initial n).life := rfl
@[simp] theorem pinReset_cause (n : Num α) : (s.pinReset n).cause = (State.initial n).cause := rfl
@[simp] theorem pinReset_exitCode (n : Num α) : (s.pinReset n).exitCode = (State.initial n).exitCode := rfl
@[simp] theorem pinReset_numFault (n : Num α) : (s.pinReset n).numFault = (State.initial n).numFault := rfl
@[simp] theorem pinReset_wcOvf (n : Num α) : (s.pinReset n).wcOvf = (State.initial n).wcOvf := rfl
@[simp] theorem pinReset_recorded (n : Num α) : (s.pinReset n).recorded = (State.initial n).recorded := rfl
@[simp] theorem pinReset_tlm (n : Num α) : (s.pinReset n).tlm = (State.initial n).tlm := rfl
@[simp] theorem pinReset_ph (n : Num α) : (s.pinReset n).ph = (State.initial n).ph := rfl
@[simp] theorem pinReset_cmdReady (n : Num α) : (s.pinReset n).cmdReady = (State.initial n).cmdReady := rfl
@[simp] theorem pinReset_loc (n : Num α) : (s.pinReset n).loc = (State.initial n).loc := rfl
@[simp] theorem pinReset_cmds (n : Num α) : (s.pinReset n).cmds = s.cmds := rfl
@[simp] theorem pinReset_rst (n : Num α) : (s.pinReset n).rst = false := rfl
@[simp] theorem pinReset_out (n : Num α) : (s.pinReset n).out = s.out := rfl

/-! ### `accept` -/

@[simp] theorem accept_cfg (rest : List CommandWord) : (s.accept rest).cfg = s.cfg := rfl
@[simp] theorem accept_drv (rest : List CommandWord) : (s.accept rest).drv = s.drv := rfl
@[simp] theorem accept_osc (rest : List CommandWord) : (s.accept rest).osc = s.osc := rfl
@[simp] theorem accept_loop (rest : List CommandWord) : (s.accept rest).loop = s.loop := rfl
@[simp] theorem accept_dec (rest : List CommandWord) : (s.accept rest).dec = s.dec := rfl
@[simp] theorem accept_hi (rest : List CommandWord) : (s.accept rest).hi = s.hi := rfl
@[simp] theorem accept_hq (rest : List CommandWord) : (s.accept rest).hq = s.hq := rfl
@[simp] theorem accept_coef (rest : List CommandWord) : (s.accept rest).coef = s.coef := rfl
@[simp] theorem accept_curI (rest : List CommandWord) : (s.accept rest).curI = s.curI := rfl
@[simp] theorem accept_curQ (rest : List CommandWord) : (s.accept rest).curQ = s.curQ := rfl
@[simp] theorem accept_life (rest : List CommandWord) : (s.accept rest).life = s.life := rfl
@[simp] theorem accept_cause (rest : List CommandWord) : (s.accept rest).cause = s.cause := rfl
@[simp] theorem accept_exitCode (rest : List CommandWord) : (s.accept rest).exitCode = s.exitCode := rfl
@[simp] theorem accept_numFault (rest : List CommandWord) : (s.accept rest).numFault = s.numFault := rfl
@[simp] theorem accept_wcOvf (rest : List CommandWord) : (s.accept rest).wcOvf = s.wcOvf := rfl
@[simp] theorem accept_recorded (rest : List CommandWord) : (s.accept rest).recorded = s.recorded := rfl
@[simp] theorem accept_tlm (rest : List CommandWord) : (s.accept rest).tlm = s.tlm := rfl
@[simp] theorem accept_ph (rest : List CommandWord) : (s.accept rest).ph = s.ph := rfl
@[simp] theorem accept_cmdReady (rest : List CommandWord) : (s.accept rest).cmdReady = s.cmdReady := rfl
@[simp] theorem accept_loc (rest : List CommandWord) : (s.accept rest).loc = s.loc := rfl
@[simp] theorem accept_cmds (rest : List CommandWord) : (s.accept rest).cmds = rest := rfl
@[simp] theorem accept_rst (rest : List CommandWord) : (s.accept rest).rst = s.rst := rfl
@[simp] theorem accept_out (rest : List CommandWord) : (s.accept rest).out = s.out := rfl

/-! ### `finish` -/

@[simp] theorem finish_cfg : (s.finish).cfg = s.cfg := rfl
@[simp] theorem finish_drv : (s.finish).drv = s.drv := rfl
@[simp] theorem finish_osc : (s.finish).osc = s.osc := rfl
@[simp] theorem finish_loop : (s.finish).loop = s.loop := rfl
@[simp] theorem finish_dec : (s.finish).dec = s.dec := rfl
@[simp] theorem finish_hi : (s.finish).hi = s.hi := rfl
@[simp] theorem finish_hq : (s.finish).hq = s.hq := rfl
@[simp] theorem finish_coef : (s.finish).coef = s.coef := rfl
@[simp] theorem finish_curI : (s.finish).curI = s.curI := rfl
@[simp] theorem finish_curQ : (s.finish).curQ = s.curQ := rfl
@[simp] theorem finish_life : (s.finish).life = .halted := rfl
@[simp] theorem finish_cause : (s.finish).cause = .none := rfl
@[simp] theorem finish_exitCode : (s.finish).exitCode = 0 := rfl
@[simp] theorem finish_numFault : (s.finish).numFault = s.numFault := rfl
@[simp] theorem finish_wcOvf : (s.finish).wcOvf = s.wcOvf := rfl
@[simp] theorem finish_recorded : (s.finish).recorded = s.recorded := rfl
@[simp] theorem finish_tlm : (s.finish).tlm = s.tlm := rfl
@[simp] theorem finish_ph : (s.finish).ph = s.ph := rfl
@[simp] theorem finish_cmdReady : (s.finish).cmdReady = s.cmdReady := rfl
@[simp] theorem finish_loc : (s.finish).loc = s.loc := rfl
@[simp] theorem finish_cmds : (s.finish).cmds = s.cmds := rfl
@[simp] theorem finish_rst : (s.finish).rst = s.rst := rfl
@[simp] theorem finish_out : (s.finish).out = s.out := rfl

/-! ### `setCfg` -/

@[simp] theorem setCfg_cfg (c : CfgRegs α) : (s.setCfg c).cfg = c := rfl
@[simp] theorem setCfg_drv (c : CfgRegs α) : (s.setCfg c).drv = s.drv := rfl
@[simp] theorem setCfg_osc (c : CfgRegs α) : (s.setCfg c).osc = s.osc := rfl
@[simp] theorem setCfg_loop (c : CfgRegs α) : (s.setCfg c).loop = s.loop := rfl
@[simp] theorem setCfg_dec (c : CfgRegs α) : (s.setCfg c).dec = s.dec := rfl
@[simp] theorem setCfg_hi (c : CfgRegs α) : (s.setCfg c).hi = s.hi := rfl
@[simp] theorem setCfg_hq (c : CfgRegs α) : (s.setCfg c).hq = s.hq := rfl
@[simp] theorem setCfg_coef (c : CfgRegs α) : (s.setCfg c).coef = s.coef := rfl
@[simp] theorem setCfg_curI (c : CfgRegs α) : (s.setCfg c).curI = s.curI := rfl
@[simp] theorem setCfg_curQ (c : CfgRegs α) : (s.setCfg c).curQ = s.curQ := rfl
@[simp] theorem setCfg_life (c : CfgRegs α) : (s.setCfg c).life = s.life := rfl
@[simp] theorem setCfg_cause (c : CfgRegs α) : (s.setCfg c).cause = s.cause := rfl
@[simp] theorem setCfg_exitCode (c : CfgRegs α) : (s.setCfg c).exitCode = s.exitCode := rfl
@[simp] theorem setCfg_numFault (c : CfgRegs α) : (s.setCfg c).numFault = s.numFault := rfl
@[simp] theorem setCfg_wcOvf (c : CfgRegs α) : (s.setCfg c).wcOvf = s.wcOvf := rfl
@[simp] theorem setCfg_recorded (c : CfgRegs α) : (s.setCfg c).recorded = s.recorded := rfl
@[simp] theorem setCfg_tlm (c : CfgRegs α) : (s.setCfg c).tlm = s.tlm := rfl
@[simp] theorem setCfg_ph (c : CfgRegs α) : (s.setCfg c).ph = s.ph := rfl
@[simp] theorem setCfg_cmdReady (c : CfgRegs α) : (s.setCfg c).cmdReady = s.cmdReady := rfl
@[simp] theorem setCfg_loc (c : CfgRegs α) : (s.setCfg c).loc = s.loc := rfl
@[simp] theorem setCfg_cmds (c : CfgRegs α) : (s.setCfg c).cmds = s.cmds := rfl
@[simp] theorem setCfg_rst (c : CfgRegs α) : (s.setCfg c).rst = s.rst := rfl
@[simp] theorem setCfg_out (c : CfgRegs α) : (s.setCfg c).out = s.out := rfl

/-! ### `setFc` -/

@[simp] theorem setFc_cfg (v : α) : (s.setFc v).cfg = s.cfg := rfl
@[simp] theorem setFc_drv (v : α) : (s.setFc v).drv = { s.drv with fc := v } := rfl
@[simp] theorem setFc_osc (v : α) : (s.setFc v).osc = s.osc := rfl
@[simp] theorem setFc_loop (v : α) : (s.setFc v).loop = s.loop := rfl
@[simp] theorem setFc_dec (v : α) : (s.setFc v).dec = s.dec := rfl
@[simp] theorem setFc_hi (v : α) : (s.setFc v).hi = s.hi := rfl
@[simp] theorem setFc_hq (v : α) : (s.setFc v).hq = s.hq := rfl
@[simp] theorem setFc_coef (v : α) : (s.setFc v).coef = s.coef := rfl
@[simp] theorem setFc_curI (v : α) : (s.setFc v).curI = s.curI := rfl
@[simp] theorem setFc_curQ (v : α) : (s.setFc v).curQ = s.curQ := rfl
@[simp] theorem setFc_life (v : α) : (s.setFc v).life = s.life := rfl
@[simp] theorem setFc_cause (v : α) : (s.setFc v).cause = s.cause := rfl
@[simp] theorem setFc_exitCode (v : α) : (s.setFc v).exitCode = s.exitCode := rfl
@[simp] theorem setFc_numFault (v : α) : (s.setFc v).numFault = s.numFault := rfl
@[simp] theorem setFc_wcOvf (v : α) : (s.setFc v).wcOvf = s.wcOvf := rfl
@[simp] theorem setFc_recorded (v : α) : (s.setFc v).recorded = s.recorded := rfl
@[simp] theorem setFc_tlm (v : α) : (s.setFc v).tlm = s.tlm := rfl
@[simp] theorem setFc_ph (v : α) : (s.setFc v).ph = s.ph := rfl
@[simp] theorem setFc_cmdReady (v : α) : (s.setFc v).cmdReady = s.cmdReady := rfl
@[simp] theorem setFc_loc (v : α) : (s.setFc v).loc = s.loc := rfl
@[simp] theorem setFc_cmds (v : α) : (s.setFc v).cmds = s.cmds := rfl
@[simp] theorem setFc_rst (v : α) : (s.setFc v).rst = s.rst := rfl
@[simp] theorem setFc_out (v : α) : (s.setFc v).out = s.out := rfl

/-! ### `launch` -/

@[simp] theorem launch_cfg [DecidableEq α] (n : Num α) : (s.launch n).cfg = s.cfg := rfl
@[simp] theorem launch_drv [DecidableEq α] (n : Num α) : (s.launch n).drv = s.cfg.derived n := rfl
@[simp] theorem launch_osc [DecidableEq α] (n : Num α) :
    (s.launch n).osc =
      { acc := n.zero, tPeriod := s.cfg.tPeriodInit, tPhase := s.cfg.tPhaseInit, wc := 0 } := rfl
@[simp] theorem launch_loop [DecidableEq α] (n : Num α) :
    (s.launch n).loop = { errInt := n.zero, lockM := n.zero, qualM := n.zero } := rfl
@[simp] theorem launch_dec [DecidableEq α] (n : Num α) :
    (s.launch n).dec =
      { locked := false, prevSign := (prevSignReset s.cfg.mode).getD .zero, short := false } := rfl
@[simp] theorem launch_hi [DecidableEq α] (n : Num α) : (s.launch n).hi = s.hi.clear s.cfg.nTaps.toNat := rfl
@[simp] theorem launch_hq [DecidableEq α] (n : Num α) : (s.launch n).hq = s.hq.clear s.cfg.nTaps.toNat := rfl
@[simp] theorem launch_coef [DecidableEq α] (n : Num α) :
    (s.launch n).coef =
      writeCoefs n (s.cfg.fc n) s.cfg.nTaps.toNat s.coef s.cfg.nTaps.toNat := rfl
@[simp] theorem launch_curI [DecidableEq α] (n : Num α) : (s.launch n).curI = 0 := rfl
@[simp] theorem launch_curQ [DecidableEq α] (n : Num α) : (s.launch n).curQ = 0 := rfl
@[simp] theorem launch_life [DecidableEq α] (n : Num α) : (s.launch n).life = .running := rfl
@[simp] theorem launch_cause [DecidableEq α] (n : Num α) : (s.launch n).cause = s.cause := rfl
@[simp] theorem launch_exitCode [DecidableEq α] (n : Num α) : (s.launch n).exitCode = s.exitCode := rfl
@[simp] theorem launch_numFault [DecidableEq α] (n : Num α) : (s.launch n).numFault = s.numFault := rfl
@[simp] theorem launch_wcOvf [DecidableEq α] (n : Num α) : (s.launch n).wcOvf = s.wcOvf := rfl
@[simp] theorem launch_recorded [DecidableEq α] (n : Num α) : (s.launch n).recorded = s.recorded := rfl
@[simp] theorem launch_tlm [DecidableEq α] (n : Num α) : (s.launch n).tlm = Telemetry.initial n := rfl
@[simp] theorem launch_ph [DecidableEq α] (n : Num α) : (s.launch n).ph = s.ph := rfl
@[simp] theorem launch_cmdReady [DecidableEq α] (n : Num α) : (s.launch n).cmdReady = s.cmdReady := rfl
@[simp] theorem launch_loc [DecidableEq α] (n : Num α) : (s.launch n).loc = s.loc := rfl
@[simp] theorem launch_cmds [DecidableEq α] (n : Num α) : (s.launch n).cmds = s.cmds := rfl
@[simp] theorem launch_rst [DecidableEq α] (n : Num α) : (s.launch n).rst = s.rst := rfl
@[simp] theorem launch_out [DecidableEq α] (n : Num α) : (s.launch n).out = s.out := rfl

/-! ### `clearRecord` -/

@[simp] theorem clearRecord_cfg : s.clearRecord.cfg = s.cfg := rfl
@[simp] theorem clearRecord_drv : s.clearRecord.drv = s.drv := rfl
@[simp] theorem clearRecord_osc : s.clearRecord.osc = s.osc := rfl
@[simp] theorem clearRecord_loop : s.clearRecord.loop = s.loop := rfl
@[simp] theorem clearRecord_dec : s.clearRecord.dec = s.dec := rfl
@[simp] theorem clearRecord_hi : s.clearRecord.hi = s.hi := rfl
@[simp] theorem clearRecord_hq : s.clearRecord.hq = s.hq := rfl
@[simp] theorem clearRecord_coef : s.clearRecord.coef = s.coef := rfl
@[simp] theorem clearRecord_curI : s.clearRecord.curI = s.curI := rfl
@[simp] theorem clearRecord_curQ : s.clearRecord.curQ = s.curQ := rfl
@[simp] theorem clearRecord_life : s.clearRecord.life = s.life := rfl
@[simp] theorem clearRecord_cause : s.clearRecord.cause = s.cause := rfl
@[simp] theorem clearRecord_exitCode : s.clearRecord.exitCode = s.exitCode := rfl
@[simp] theorem clearRecord_numFault : s.clearRecord.numFault = s.numFault := rfl
@[simp] theorem clearRecord_wcOvf : s.clearRecord.wcOvf = s.wcOvf := rfl
@[simp] theorem clearRecord_recorded : s.clearRecord.recorded = none := rfl
@[simp] theorem clearRecord_tlm : s.clearRecord.tlm = s.tlm := rfl
@[simp] theorem clearRecord_ph : s.clearRecord.ph = s.ph := rfl
@[simp] theorem clearRecord_cmdReady : s.clearRecord.cmdReady = s.cmdReady := rfl
@[simp] theorem clearRecord_loc : s.clearRecord.loc = s.loc := rfl
@[simp] theorem clearRecord_cmds : s.clearRecord.cmds = s.cmds := rfl
@[simp] theorem clearRecord_rst : s.clearRecord.rst = s.rst := rfl
@[simp] theorem clearRecord_out : s.clearRecord.out = s.out := rfl

/-! ### `noteIf` -/

@[simp] theorem noteIf_cfg (b : Bool) : (s.noteIf b).cfg = s.cfg := rfl
@[simp] theorem noteIf_drv (b : Bool) : (s.noteIf b).drv = s.drv := rfl
@[simp] theorem noteIf_osc (b : Bool) : (s.noteIf b).osc = s.osc := rfl
@[simp] theorem noteIf_loop (b : Bool) : (s.noteIf b).loop = s.loop := rfl
@[simp] theorem noteIf_dec (b : Bool) : (s.noteIf b).dec = s.dec := rfl
@[simp] theorem noteIf_hi (b : Bool) : (s.noteIf b).hi = s.hi := rfl
@[simp] theorem noteIf_hq (b : Bool) : (s.noteIf b).hq = s.hq := rfl
@[simp] theorem noteIf_coef (b : Bool) : (s.noteIf b).coef = s.coef := rfl
@[simp] theorem noteIf_curI (b : Bool) : (s.noteIf b).curI = s.curI := rfl
@[simp] theorem noteIf_curQ (b : Bool) : (s.noteIf b).curQ = s.curQ := rfl
@[simp] theorem noteIf_life (b : Bool) : (s.noteIf b).life = s.life := rfl
@[simp] theorem noteIf_cause (b : Bool) : (s.noteIf b).cause = s.cause := rfl
@[simp] theorem noteIf_exitCode (b : Bool) : (s.noteIf b).exitCode = s.exitCode := rfl
@[simp] theorem noteIf_numFault (b : Bool) :
    (s.noteIf b).numFault = (s.numFault || b) := rfl
@[simp] theorem noteIf_wcOvf (b : Bool) : (s.noteIf b).wcOvf = s.wcOvf := rfl
@[simp] theorem noteIf_recorded (b : Bool) : (s.noteIf b).recorded = firstFault s.recorded b .numericFault := rfl
@[simp] theorem noteIf_tlm (b : Bool) : (s.noteIf b).tlm = s.tlm := rfl
@[simp] theorem noteIf_ph (b : Bool) : (s.noteIf b).ph = s.ph := rfl
@[simp] theorem noteIf_cmdReady (b : Bool) : (s.noteIf b).cmdReady = s.cmdReady := rfl
@[simp] theorem noteIf_loc (b : Bool) : (s.noteIf b).loc = s.loc := rfl
@[simp] theorem noteIf_cmds (b : Bool) : (s.noteIf b).cmds = s.cmds := rfl
@[simp] theorem noteIf_rst (b : Bool) : (s.noteIf b).rst = s.rst := rfl
@[simp] theorem noteIf_out (b : Bool) : (s.noteIf b).out = s.out := rfl

/-! ### `noteOverflow` -/

@[simp] theorem noteOverflow_cfg (b : Bool) : (s.noteOverflow b).cfg = s.cfg := rfl
@[simp] theorem noteOverflow_drv (b : Bool) : (s.noteOverflow b).drv = s.drv := rfl
@[simp] theorem noteOverflow_osc (b : Bool) : (s.noteOverflow b).osc = s.osc := rfl
@[simp] theorem noteOverflow_loop (b : Bool) : (s.noteOverflow b).loop = s.loop := rfl
@[simp] theorem noteOverflow_dec (b : Bool) : (s.noteOverflow b).dec = s.dec := rfl
@[simp] theorem noteOverflow_hi (b : Bool) : (s.noteOverflow b).hi = s.hi := rfl
@[simp] theorem noteOverflow_hq (b : Bool) : (s.noteOverflow b).hq = s.hq := rfl
@[simp] theorem noteOverflow_coef (b : Bool) : (s.noteOverflow b).coef = s.coef := rfl
@[simp] theorem noteOverflow_curI (b : Bool) : (s.noteOverflow b).curI = s.curI := rfl
@[simp] theorem noteOverflow_curQ (b : Bool) : (s.noteOverflow b).curQ = s.curQ := rfl
@[simp] theorem noteOverflow_life (b : Bool) : (s.noteOverflow b).life = s.life := rfl
@[simp] theorem noteOverflow_cause (b : Bool) : (s.noteOverflow b).cause = s.cause := rfl
@[simp] theorem noteOverflow_exitCode (b : Bool) : (s.noteOverflow b).exitCode = s.exitCode := rfl
@[simp] theorem noteOverflow_numFault (b : Bool) : (s.noteOverflow b).numFault = s.numFault := rfl
@[simp] theorem noteOverflow_wcOvf (b : Bool) : (s.noteOverflow b).wcOvf = (s.wcOvf || b) := rfl
@[simp] theorem noteOverflow_recorded (b : Bool) :
    (s.noteOverflow b).recorded = firstFault s.recorded b .counterOverflow := rfl
@[simp] theorem noteOverflow_tlm (b : Bool) : (s.noteOverflow b).tlm = s.tlm := rfl
@[simp] theorem noteOverflow_ph (b : Bool) : (s.noteOverflow b).ph = s.ph := rfl
@[simp] theorem noteOverflow_cmdReady (b : Bool) : (s.noteOverflow b).cmdReady = s.cmdReady := rfl
@[simp] theorem noteOverflow_loc (b : Bool) : (s.noteOverflow b).loc = s.loc := rfl
@[simp] theorem noteOverflow_cmds (b : Bool) : (s.noteOverflow b).cmds = s.cmds := rfl
@[simp] theorem noteOverflow_rst (b : Bool) : (s.noteOverflow b).rst = s.rst := rfl
@[simp] theorem noteOverflow_out (b : Bool) : (s.noteOverflow b).out = s.out := rfl

/-! ### `note` -/

@[simp] theorem note_cfg (n : Num α) (ds vs : List α) : (s.note n ds vs).cfg = s.cfg := rfl
@[simp] theorem note_drv (n : Num α) (ds vs : List α) : (s.note n ds vs).drv = s.drv := rfl
@[simp] theorem note_osc (n : Num α) (ds vs : List α) : (s.note n ds vs).osc = s.osc := rfl
@[simp] theorem note_loop (n : Num α) (ds vs : List α) : (s.note n ds vs).loop = s.loop := rfl
@[simp] theorem note_dec (n : Num α) (ds vs : List α) : (s.note n ds vs).dec = s.dec := rfl
@[simp] theorem note_hi (n : Num α) (ds vs : List α) : (s.note n ds vs).hi = s.hi := rfl
@[simp] theorem note_hq (n : Num α) (ds vs : List α) : (s.note n ds vs).hq = s.hq := rfl
@[simp] theorem note_coef (n : Num α) (ds vs : List α) : (s.note n ds vs).coef = s.coef := rfl
@[simp] theorem note_curI (n : Num α) (ds vs : List α) : (s.note n ds vs).curI = s.curI := rfl
@[simp] theorem note_curQ (n : Num α) (ds vs : List α) : (s.note n ds vs).curQ = s.curQ := rfl
@[simp] theorem note_life (n : Num α) (ds vs : List α) : (s.note n ds vs).life = s.life := rfl
@[simp] theorem note_cause (n : Num α) (ds vs : List α) : (s.note n ds vs).cause = s.cause := rfl
@[simp] theorem note_exitCode (n : Num α) (ds vs : List α) : (s.note n ds vs).exitCode = s.exitCode := rfl
@[simp] theorem note_numFault (n : Num α) (ds vs : List α) :
    (s.note n ds vs).numFault = (s.numFault || raisesNumeric n ds vs) := rfl
@[simp] theorem note_wcOvf (n : Num α) (ds vs : List α) : (s.note n ds vs).wcOvf = s.wcOvf := rfl
@[simp] theorem note_recorded (n : Num α) (ds vs : List α) :
    (s.note n ds vs).recorded = firstFault s.recorded (raisesNumeric n ds vs) .numericFault := rfl
@[simp] theorem note_tlm (n : Num α) (ds vs : List α) : (s.note n ds vs).tlm = s.tlm := rfl
@[simp] theorem note_ph (n : Num α) (ds vs : List α) : (s.note n ds vs).ph = s.ph := rfl
@[simp] theorem note_cmdReady (n : Num α) (ds vs : List α) : (s.note n ds vs).cmdReady = s.cmdReady := rfl
@[simp] theorem note_loc (n : Num α) (ds vs : List α) : (s.note n ds vs).loc = s.loc := rfl
@[simp] theorem note_cmds (n : Num α) (ds vs : List α) : (s.note n ds vs).cmds = s.cmds := rfl
@[simp] theorem note_rst (n : Num α) (ds vs : List α) : (s.note n ds vs).rst = s.rst := rfl
@[simp] theorem note_out (n : Num α) (ds vs : List α) : (s.note n ds vs).out = s.out := rfl

end Sys2Proof.Machine.State
end

