-- ==== Sys2Proof/Laws/Ops.lean ====
section
/-! SUPPORT. What each shared operation can do, said once for every implementation: sequencing, flags, the filter, the
decoder's transition, one tick and one step. `exec` and `step` are the machine on `Impl.ieee32`. -/

namespace Sys2Proof.Machine

variable {α : Type}

/-! ### The default implementation -/

/-- The match of Dispatch.lean is the machine's one operation on the default implementation. -/
theorem exec_eq (i : Instr) (s : State) : exec i s = Impl.ieee32.exec i s := by cases i <;> rfl

/-! ### Sequencing -/

@[simp] theorem andThen_next (s : State α) (f : State α → Result α) : andThen (.next s) f = f s := rfl

/-- A sequence answers a next state exactly through a next state of its first part. -/
theorem andThen_eq_next {r : Result α} {f : State α → Result α} {t : State α} :
    andThen r f = .next t ↔ ∃ s, r = .next s ∧ f s = .next t := by
  cases r <;> simp [andThen]

/-- The micro-operations of a TICK that answers a next state, one after the other. -/
theorem Impl.runTick_eq_next [DecidableEq α] {p : Impl α} {s t : State α} :
    p.runTick s = .next t ↔
      ∃ s1 s2 s3 s4 s5 s6 s7 s8, p.acq s = .next s1 ∧ p.ncoStep s1 = .next s2 ∧ p.mix s2 = .next s3 ∧
        p.firI s3 = .next s4 ∧ p.firQ s4 = .next s5 ∧ p.loopUpdate s5 = .next s6 ∧
        p.lockEval s6 = .next s7 ∧ p.decStep s7 = .next s8 ∧ p.tlmEmit s8 = .next t := by
  simp only [Impl.runTick, andThen_eq_next]
  constructor
  · rintro ⟨s1, h1, s2, h2, s3, h3, s4, h4, s5, h5, s6, h6, s7, h7, s8, h8, h9⟩
    exact ⟨s1, s2, s3, s4, s5, s6, s7, s8, h1, h2, h3, h4, h5, h6, h7, h8, h9⟩
  · rintro ⟨s1, s2, s3, s4, s5, s6, s7, s8, h1, h2, h3, h4, h5, h6, h7, h8, h9⟩
    exact ⟨s1, h1, s2, h2, s3, h3, s4, h4, s5, h5, s6, h6, s7, h7, s8, h8, h9⟩

/-! ### Flags -/

@[simp] theorem wcFull_none (c : Nat) : wcFull none c = false := rfl

@[simp] theorem wcFull_some (b c : Nat) : wcFull (some b) c = decide (2 ^ b - 1 ≤ c) := rfl

/-- `WC` stays or gains one. -/
theorem wcNext_cases (b : Option Nat) (w : Bool) (c : Nat) : wcNext b w c = c ∨ wcNext b w c = c + 1 := by
  unfold wcNext; split <;> simp

/-- A counter of `b` bits stays within them. -/
theorem wcNext_le {b : Nat} {w : Bool} {c : Nat} (h : c ≤ 2 ^ b - 1) : wcNext (some b) w c ≤ 2 ^ b - 1 := by
  unfold wcNext; split
  · rename_i hw
    simp only [wcFull_some, Bool.and_eq_true, Bool.not_eq_true', decide_eq_false_iff_not] at hw
    omega
  · exact h

theorem le_wcNext (b : Option Nat) (w : Bool) (c : Nat) : c ≤ wcNext b w c := by
  rcases wcNext_cases b w c with h | h <;> omega

/-- A line that raises nothing leaves the record. -/
@[simp] theorem firstFault_false (r : Option FaultKind) (k : FaultKind) : firstFault r false k = r := by
  cases r <;> rfl

/-- The first fault of a command is recorded (R239). -/
@[simp] theorem firstFault_none (b : Bool) (k : FaultKind) : firstFault none b k = if b then some k else none := by
  cases b <;> rfl

/-- A later fault replaces no record (R239). -/
@[simp] theorem firstFault_some (f : FaultKind) (b : Bool) (k : FaultKind) : firstFault (some f) b k = some f := by
  cases b <;> rfl

/-- What the record is after a line: what it was, or, where there was none and the line raised `k`, that. -/
theorem firstFault_eq_some {r : Option FaultKind} {b : Bool} {k f : FaultKind} :
    firstFault r b k = some f ↔ r = some f ∨ (r = none ∧ b = true ∧ k = f) := by
  cases r <;> cases b <;> simp

/-- `NUMFAULT` is sticky under `note`. -/
theorem note_numFault_of (s : State α) (n : Num α) (ds vs : List α) (h : s.numFault = true) :
    (s.note n ds vs).numFault = true := by simp [h]

/-- A line that raises nothing changes nothing. -/
@[simp] theorem noteIf_false (s : State α) : s.noteIf false = s := by simp [State.noteIf]

/-- ACQ leaves `NUMFAULT` alone where `ofSample` is defined everywhere. -/
theorem execAcq_eq (s : State) : execAcq s = .next { s with loc := { s.loc with x := s.loc.data }, ph := 1 } := by
  simp [execAcq, Impl.acq, sampleOperand]

/-! ### The filter -/

/-- The sum of R111 as a fold over the coefficient indices. -/
theorem firTaps_fst (n : Num α) (coef hist : Nat → α) (len cur k : Nat) :
    (firTaps n coef hist len cur k).1 =
      (List.range k).foldl
        (fun acc j => n.fadd acc (n.fmul (coef j) (hist ((cur + len - j) % len)))) n.zero := by
  induction k with
  | zero => rfl
  | succ k ih => rw [List.range_succ, List.foldl_append, ← ih]; rfl

/-- Histories that agree on `0 .. len-1` give the same sum. -/
theorem firTaps_congr (n : Num α) {coef coef' hist hist' : Nat → α} {len : Nat} (cur : Nat)
    (hl : 0 < len) (hh : ∀ a, a < len → hist a = hist' a) {k : Nat} (hc : ∀ a, a < k → coef a = coef' a) :
    firTaps n coef hist len cur k = firTaps n coef' hist' len cur k := by
  induction k with
  | zero => rfl
  | succ k ih =>
    simp only [firTaps, ih fun a ha => hc a (by omega), hc k (by omega), hh _ (Nat.mod_lt _ hl)]

/-- The cursor after a call is in range. -/
theorem fir_cur_lt [DecidableEq α] (n : Num α) (coef hist : Memory α) {len : Nat} (cur : Nat) (u : α)
    (h : 0 < len) : (fir n coef hist len cur u).cur < len := Nat.mod_lt _ h

/-- One filter call writes the cursor's element and no other (R111). -/
theorem fir_get [DecidableEq α] (n : Num α) {hist : Memory α} (coef : Memory α) (hh : hist.canonical n.zero)
    (len cur : Nat) (u : α) (a : Nat) :
    (fir n coef hist len cur u).hist.get n.zero a = if a = cur then u else hist.get n.zero a :=
  Memory.get_put hh cur u a

/-- FIR.I answers a next state exactly when its cursor names an element. -/
theorem Impl.firI_eq_next [DecidableEq α] {p : Impl α} {s t : State α} :
    p.firI s = .next t ↔ s.curI < s.cfg.nTaps.toNat ∧ t = s.afterFirI p.num := by
  unfold Impl.firI
  split
  · simp [*, eq_comm]
  · simp [*]

/-- FIR.Q answers a next state exactly when its cursor names an element. -/
theorem Impl.firQ_eq_next [DecidableEq α] {p : Impl α} {s t : State α} :
    p.firQ s = .next t ↔ s.curQ < s.cfg.nTaps.toNat ∧ t = s.afterFirQ p.num := by
  unfold Impl.firQ
  split
  · simp [*, eq_comm]
  · simp [*]

/-! ### The host commands -/

theorem Impl.cfgw_eq_next {p : Impl α} {idx : CsrIndex} {data : BitVec 32} {s t : State α} :
    p.cfgw idx data s = .next t ↔
      (s.life = .unconfigured ∧ t = s.setCfg (s.cfg.write p.num idx data)) ∨ (s.life ≠ .unconfigured ∧ t = s) := by
  unfold Impl.cfgw
  by_cases h : s.life = .unconfigured <;> simp [h, eq_comm (a := t)]

theorem eos_eq_next {s t : State α} :
    eos s = .next t ↔ (s.life = .running ∧ t = s.finish) ∨ (s.life ≠ .running ∧ t = s) := by
  unfold eos
  by_cases h : s.life = .running <;> simp [h, eq_comm (a := t)]

theorem Impl.serr_eq_next {p : Impl α} {s t : State α} :
    p.serr s = .next t ↔
      (s.life = .running ∧ t = s.clearRecord.raiseFatal p .streamError) ∨ (s.life ≠ .running ∧ t = s) := by
  unfold Impl.serr
  by_cases h : s.life = .running <;> simp [h, eq_comm (a := t)]

theorem Impl.tick_eq_next [DecidableEq α] {p : Impl α} {data : BitVec 32} {s t : State α} :
    p.tick data s = .next t ↔
      (s.life = .running ∧ p.runTick (s.beginTick data) = .next t) ∨ (s.life ≠ .running ∧ t = s) := by
  unfold Impl.tick
  by_cases h : s.life = .running <;> simp [h, eq_comm (a := t)]

/-- What a DESIGN that answers a next state does: nothing out of place, ConfigurationError, or a launch. -/
theorem Impl.design_eq_next [DecidableEq α] {p : Impl α} {s t : State α} :
    p.design s = .next t ↔
      (s.life ≠ .unconfigured ∧ t = s) ∨
      (s.life = .unconfigured ∧ p.num.fge (s.cfg.fc p.num) (p.num.ofNat 1) = true ∧
        t = ((s.clearRecord.setFc (s.cfg.fc p.num)).note p.num [s.cfg.sampleRate] (s.cfg.fcMade p.num)).raiseFatal p
          .configurationError) ∨
      (s.life = .unconfigured ∧ p.num.fge (s.cfg.fc p.num) (p.num.ofNat 1) = false ∧ s.cfg.runnable p = true ∧
        t = (s.clearRecord.launch p.num).note p.num [s.cfg.sampleRate, s.cfg.refPeriod]
          (s.cfg.fcMade p.num ++ s.cfg.designMade p.num)) := by
  unfold Impl.design
  by_cases h : s.life = .unconfigured
  · rw [if_neg (not_not.2 h)]
    cases hf : p.num.fge (s.cfg.fc p.num) (p.num.ofNat 1)
    · cases hr : s.cfg.runnable p
      · rw [if_neg Bool.false_ne_true, if_neg Bool.false_ne_true]; simp [h]
      · rw [if_neg Bool.false_ne_true, if_pos rfl, Host.Outcome.next.injEq, eq_comm]; simp [h]
    · rw [if_pos rfl, Host.Outcome.next.injEq, eq_comm]; simp [h]
  · rw [if_pos h, Host.Outcome.next.injEq, eq_comm]; simp [h]

/-! ### The loop filter -/

/-- The state LOOP.UPDATE leaves from the loop filter's results. -/
theorem Impl.loopUpdate_eq_next {p : Impl α} {s t : State α} :
    p.loopUpdate s = .next t ↔ ∃ z r, loopMode s.cfg.mode = some z ∧
      r = loopFilter p.num s.gains z s.loc.sI s.loc.sQ s.loop.errInt s.osc.tPhase s.osc.tPeriod ∧
      t = (({ s with
          osc := { s.osc with tPhase := r.tPhase, tPeriod := r.tPeriod }
          loop := { s.loop with errInt := r.errInt }
          loc := { s.loc with err := r.err, errC := r.errC } }.note p.num [] r.made).advance) := by
  unfold Impl.loopUpdate
  split
  · simp [*]
  · rename_i z hz
    simp only [hz, Option.some.injEq, Host.Outcome.next.injEq, exists_and_left, exists_eq_left', exists_eq_left,
      eq_comm]

/-! ### The decoder -/

@[simp] theorem transition_osc (s : State α) (g : Sign) : (s.transition g).osc = { s.osc with wc := 0 } := rfl
@[simp] theorem transition_cfg (s : State α) (g : Sign) : (s.transition g).cfg = s.cfg := rfl
@[simp] theorem transition_drv (s : State α) (g : Sign) : (s.transition g).drv = s.drv := rfl
@[simp] theorem transition_loop (s : State α) (g : Sign) : (s.transition g).loop = s.loop := rfl
@[simp] theorem transition_hi (s : State α) (g : Sign) : (s.transition g).hi = s.hi := rfl
@[simp] theorem transition_hq (s : State α) (g : Sign) : (s.transition g).hq = s.hq := rfl
@[simp] theorem transition_coef (s : State α) (g : Sign) : (s.transition g).coef = s.coef := rfl
@[simp] theorem transition_curI (s : State α) (g : Sign) : (s.transition g).curI = s.curI := rfl
@[simp] theorem transition_curQ (s : State α) (g : Sign) : (s.transition g).curQ = s.curQ := rfl
@[simp] theorem transition_life (s : State α) (g : Sign) : (s.transition g).life = s.life := rfl
@[simp] theorem transition_cause (s : State α) (g : Sign) : (s.transition g).cause = s.cause := rfl
@[simp] theorem transition_exitCode (s : State α) (g : Sign) : (s.transition g).exitCode = s.exitCode := rfl
@[simp] theorem transition_numFault (s : State α) (g : Sign) : (s.transition g).numFault = s.numFault := rfl
@[simp] theorem transition_wcOvf (s : State α) (g : Sign) : (s.transition g).wcOvf = s.wcOvf := rfl
@[simp] theorem transition_recorded (s : State α) (g : Sign) : (s.transition g).recorded = s.recorded := rfl
@[simp] theorem transition_tlm (s : State α) (g : Sign) : (s.transition g).tlm = s.tlm := rfl
@[simp] theorem transition_ph (s : State α) (g : Sign) : (s.transition g).ph = s.ph := rfl
@[simp] theorem transition_cmdReady (s : State α) (g : Sign) : (s.transition g).cmdReady = s.cmdReady := rfl
@[simp] theorem transition_loc (s : State α) (g : Sign) : (s.transition g).loc = s.loc := rfl
@[simp] theorem transition_cmds (s : State α) (g : Sign) : (s.transition g).cmds = s.cmds := rfl
@[simp] theorem transition_rst (s : State α) (g : Sign) : (s.transition g).rst = s.rst := rfl
@[simp] theorem transition_prevSign (s : State α) (g : Sign) : (s.transition g).dec.prevSign = g := rfl
@[simp] theorem transition_locked (s : State α) (g : Sign) : (s.transition g).dec.locked = s.dec.locked := rfl
@[simp] theorem transition_short (s : State α) (g : Sign) :
    (s.transition g).dec.short = (decodeInterval (α := α) s.dec.short (isLong s.osc.wc s.drv.halfThr2)).1 := rfl
@[simp] theorem transition_out (s : State α) (g : Sign) :
    (s.transition g).out =
      s.out ++ (decodeInterval s.dec.short (isLong s.osc.wc s.drv.halfThr2)).2.map .event := rfl

/-- What DEC.STEP can do: only move on, or make a transition and move on. -/
theorem Impl.decStep_cases (p : Impl α) (s : State α) :
    p.decStep s = .next s.advance ∨
      ∃ g, g ≠ s.dec.prevSign ∧ g = sgn2 p.num s.loc.sI ∧
        qualifies p.num s.dec.locked s.cfg.ampThr s.loc.sI = true ∧
        p.decStep s = .next (s.transition g).advance := by
  unfold Impl.decStep
  split
  · split
    · exact .inl rfl
    · rename_i hq hs
      exact .inr ⟨_, hs, rfl, hq, rfl⟩
  · exact .inl rfl

/-- The events of one interval (R191, R192). -/
theorem decodeInterval_events (short long : Bool) :
    (decodeInterval short long).2 ∈
      ([[], [.bit false], [.bit true], [.bit true, .anomaly]] : List (List (Event α))) := by
  cases short <;> cases long <;> simp [decodeInterval]

/-! ### Decoding and one step -/

/-- A sequencer phase selects one of the nine micro-operations. -/
theorem decodePhase_ok {ph : Phase} {i : Instr} (h : decodePhase ph = .ok i) :
    (ph = 0 ∧ i = .acq) ∨ (ph = 1 ∧ i = .ncoStep) ∨ (ph = 2 ∧ i = .mix) ∨ (ph = 3 ∧ i = .firI) ∨
      (ph = 4 ∧ i = .firQ) ∨ (ph = 5 ∧ i = .loopUpdate) ∨ (ph = 6 ∧ i = .lockEval) ∨
      (ph = 7 ∧ i = .decStep) ∨ (ph = 8 ∧ i = .tlmEmit) := by
  revert h
  revert ph
  intro ph h
  have hp : ph = BitVec.ofNat 4 ph.toNat := by simp
  have hlt := ph.isLt
  generalize ph.toNat = k at *
  subst hp
  interval_cases k <;> simp [decodePhase] at h <;> simp [← h]

/-- A command word selects one of the seven host commands, with the fields of the word. -/
theorem decodeCommand_ok {w : CommandWord} {i : Instr} (h : decodeCommand w = .ok i) :
    i = .reset (idxField w) (dataField w) ∨ i = .cfgw (idxField w) (dataField w) ∨
      i = .csrr (idxField w) (dataField w) ∨ i = .design (idxField w) (dataField w) ∨
      i = .tick (idxField w) (dataField w) ∨ i = .eos (idxField w) (dataField w) ∨
      i = .serr (idxField w) (dataField w) := by
  unfold decodeCommand at h
  split at h <;> first | (cases h; simp) | cases h

/-- What one step can be: a reset by the pin, waiting, a word ignored, a host command, or a micro-operation of a
tick in progress. -/
theorem stepOnce_cases {n : Num α} {run : Instr → State α → Result α} {s t : State α}
    (h : stepOnce n run s = .next t) :
    (s.rst = true ∧ t = s.pinReset n) ∨
    (s.rst = false ∧ s.cmdReady = true ∧ s.cmds = [] ∧ t = s) ∨
    (∃ w rest, s.rst = false ∧ s.cmdReady = true ∧ s.cmds = w :: rest ∧
      ((∃ e, decodeCommand w = .error e ∧ t = s.accept rest) ∨
        ∃ i, decodeCommand w = .ok i ∧ run i (s.accept rest) = .next t)) ∨
    (∃ i, s.rst = false ∧ s.cmdReady = false ∧ decodePhase s.ph = .ok i ∧ run i s = .next t) := by
  unfold stepOnce at h
  cases hr : s.rst with
  | true => rw [hr] at h; simp only [if_true] at h; cases h; exact .inl ⟨rfl, rfl⟩
  | false =>
    rw [hr] at h
    simp only [Bool.false_eq_true, if_false] at h
    cases hc : s.cmdReady with
    | true =>
      rw [hc, if_pos rfl] at h
      unfold commandStep at h
      split at h
      · rename_i hm; cases h; exact .inr (.inl ⟨rfl, rfl, hm, rfl⟩)
      · rename_i w rest hm
        refine .inr (.inr (.inl ⟨w, rest, rfl, rfl, hm, ?_⟩))
        split at h
        · exact .inr ⟨_, ‹_›, h⟩
        · cases h; exact .inl ⟨_, ‹_›, rfl⟩
    | false =>
      rw [hc] at h
      simp only [Bool.false_eq_true, if_false] at h
      unfold sequencerStep at h
      split at h
      · exact .inr (.inr (.inr ⟨_, rfl, rfl, ‹_›, h⟩))
      · cases h

/-- `stepOnce_cases` of the machine on the default implementation. -/
theorem step_cases {s t : State} (h : step s = .next t) :
    (s.rst = true ∧ t = s.pinReset F32.ieee32) ∨
    (s.rst = false ∧ s.cmdReady = true ∧ s.cmds = [] ∧ t = s) ∨
    (∃ w rest, s.rst = false ∧ s.cmdReady = true ∧ s.cmds = w :: rest ∧
      ((∃ e, decodeCommand w = .error e ∧ t = s.accept rest) ∨
        ∃ i, decodeCommand w = .ok i ∧ exec i (s.accept rest) = .next t)) ∨
    (∃ i, s.rst = false ∧ s.cmdReady = false ∧ decodePhase s.ph = .ok i ∧ exec i s = .next t) :=
  stepOnce_cases h

end Sys2Proof.Machine
end

