-- ==== Sys2Proof/Laws/PerInstr.lean ====
section
/-! SUPPORT. Statements made of every operation as syntax, one lemma per constructor. `TableRow`: the code the
encoder gives an operation meets the mask and match of its row of `spec/opcode_table.json`. -/

namespace Sys2Proof.Laws.TableRow

/-- The mask and match of an operation's row of the opcode table (R82, R84). -/
def row : Instr → Nat × Nat
  | .reset _ _ => (0xF0000000000, 0x10000000000)
  | .cfgw _ _ => (0xF0000000000, 0x20000000000)
  | .csrr _ _ => (0xF0000000000, 0x30000000000)
  | .design _ _ => (0xF0000000000, 0x40000000000)
  | .tick _ _ => (0xF0000000000, 0x50000000000)
  | .eos _ _ => (0xF0000000000, 0x60000000000)
  | .serr _ _ => (0xF0000000000, 0x70000000000)
  | .acq => (0xF, 0x0)
  | .ncoStep => (0xF, 0x1)
  | .mix => (0xF, 0x2)
  | .firI => (0xF, 0x3)
  | .firQ => (0xF, 0x4)
  | .loopUpdate => (0xF, 0x5)
  | .lockEval => (0xF, 0x6)
  | .decStep => (0xF, 0x7)
  | .tlmEmit => (0xF, 0x8)

/-- A code meets a mask and a match. -/
def meets (r : Nat × Nat) : Code → Prop
  | .command w => w &&& BitVec.ofNat 44 r.1 = BitVec.ofNat 44 r.2
  | .phase ph => ph &&& BitVec.ofNat 4 r.1 = BitVec.ofNat 4 r.2

/-- The code of `i` meets its row. -/
def Statement (i : Instr) : Prop := meets (row i) (encode i)

/-- The mask `0xF0000000000` keeps the operation code alone (R82). -/
theorem commandWord_and_mask (op : BitVec 4) (idx : CsrIndex) (data : BitVec 32) :
    commandWord op idx data &&& 0xF0000000000#44 = commandWord op 0 0 := by
  have hm : 0xF0000000000#44 = BitVec.allOnes 4 ++ (0 : BitVec 8) ++ (0 : BitVec 32) := by decide
  have hand (a : BitVec (4 + 8 + 32)) (b : BitVec 4) (c : BitVec 8) (d : BitVec 32) (h : a = b ++ c ++ d) :
      a &&& (BitVec.allOnes 4 ++ (0 : BitVec 8) ++ (0 : BitVec 32)) = b ++ (0 : BitVec 8) ++ (0 : BitVec 32) := by
    subst h
    rw [BitVec.and_append, BitVec.and_append, BitVec.and_allOnes]
    simp
  rw [hm]
  exact hand _ op idx data rfl

theorem reset (idx : CsrIndex) (data : BitVec 32) : Statement (.reset idx data) := by
  show commandWord 0x1 idx data &&& 0xF0000000000#44 = 0x10000000000#44
  rw [commandWord_and_mask]; decide
theorem cfgw (idx : CsrIndex) (data : BitVec 32) : Statement (.cfgw idx data) := by
  show commandWord 0x2 idx data &&& 0xF0000000000#44 = 0x20000000000#44
  rw [commandWord_and_mask]; decide
theorem csrr (idx : CsrIndex) (data : BitVec 32) : Statement (.csrr idx data) := by
  show commandWord 0x3 idx data &&& 0xF0000000000#44 = 0x30000000000#44
  rw [commandWord_and_mask]; decide
theorem design (idx : CsrIndex) (data : BitVec 32) : Statement (.design idx data) := by
  show commandWord 0x4 idx data &&& 0xF0000000000#44 = 0x40000000000#44
  rw [commandWord_and_mask]; decide
theorem tick (idx : CsrIndex) (data : BitVec 32) : Statement (.tick idx data) := by
  show commandWord 0x5 idx data &&& 0xF0000000000#44 = 0x50000000000#44
  rw [commandWord_and_mask]; decide
theorem eos (idx : CsrIndex) (data : BitVec 32) : Statement (.eos idx data) := by
  show commandWord 0x6 idx data &&& 0xF0000000000#44 = 0x60000000000#44
  rw [commandWord_and_mask]; decide
theorem serr (idx : CsrIndex) (data : BitVec 32) : Statement (.serr idx data) := by
  show commandWord 0x7 idx data &&& 0xF0000000000#44 = 0x70000000000#44
  rw [commandWord_and_mask]; decide
theorem acq : Statement .acq := rfl
theorem ncoStep : Statement .ncoStep := rfl
theorem mix : Statement .mix := rfl
theorem firI : Statement .firI := rfl
theorem firQ : Statement .firQ := rfl
theorem loopUpdate : Statement .loopUpdate := rfl
theorem lockEval : Statement .lockEval := rfl
theorem decStep : Statement .decStep := rfl
theorem tlmEmit : Statement .tlmEmit := rfl

end Sys2Proof.Laws.TableRow
end

