-- ==== Sys2Proof/Machine/Trace.lean ====
section
/-! DEFINITION. The notation for command traces (R89): reading a line of text, the image of a value, the commands a
line expands to and the 11 hexadecimal digits of a command word. -/

namespace Sys2Proof.Machine

/-- A register name of R36, R38 to R40 or R43 with its number. -/
def csrNames : List (String × CsrIndex) :=
  [("N_TAPS", 0x00), ("SAMPLE_RATE", 0x01), ("CUTOFF", 0x02), ("REF_PERIOD", 0x03), ("PHASE_GAIN", 0x04),
    ("CYC_PER_CLOCK", 0x05), ("CYC_PER_BIT", 0x06), ("LOCK_THR", 0x07), ("AMP_THR", 0x08)] ++
  [("KI_FACTOR", 0x09), ("KF_FACTOR", 0x0A), ("MODE", 0x0B), ("TPERIOD_INIT", 0x0C), ("TPHASE_INIT", 0x0D),
    ("FC", 0x10), ("SAMPLE_PERIOD", 0x11), ("INTEGRAL_GAIN", 0x12), ("FREQ_GAIN", 0x13)] ++
  [("HALF_THR2", 0x14), ("STATUS", 0x20), ("CAUSE", 0x21), ("EXIT", 0x22), ("ACC", 0x30), ("TPERIOD", 0x31),
    ("TPHASE", 0x32), ("WC", 0x33), ("ERRINT", 0x34), ("LOCKM", 0x35), ("QUALM", 0x36)] ++
  [("CUR_I", 0x37), ("CUR_Q", 0x38), ("T_TPERIOD", 0x40), ("T_TPHASE", 0x41), ("T_SAMPLE", 0x42),
    ("T_I", 0x43), ("T_Q", 0x44), ("T_LOCK", 0x45), ("T_QUAL", 0x46), ("T_SI", 0x47)] ++
  [("T_SQ", 0x48), ("T_ERR", 0x49), ("T_ERRINT", 0x4A), ("T_ERRC", 0x4B)]

/-- The number of a register name. -/
def csrNumber (name : String) : Option CsrIndex := csrNames.lookup name

/-- Whether a CSR number is that of a register of type `V` (R36, R38, R40, R43). A reserved number has no type. -/
def csrIsV (idx : CsrIndex) : Bool :=
  let k := idx.toNat
  (decide (0x01 ≤ k) && decide (k ≤ 0x0D) && k != 0x05 && k != 0x06 && k != 0x0B)
    || (decide (0x10 ≤ k) && decide (k ≤ 0x13))
    || (decide (0x30 ≤ k) && decide (k ≤ 0x36) && k != 0x33)
    || (decide (0x40 ≤ k) && decide (k ≤ 0x4B))

/-- A value of the notation (R89): a decimal literal or an exact fraction as `p / q`, a decimal integer, or a raw
image. -/
inductive TraceValue where
  | literal (p : Int) (q : Nat)
  | integer (k : Nat)
  | raw (w : Image)
deriving DecidableEq, Repr

/-- The 32-bit image of a value, for a register of type `V` or of another type. DESIGN CHOICE (log 22): a decimal
integer of `2^32` or more for a register of another type, which R35 calls not representable and for which R89 gives no
word, is taken modulo `2^32`; a decimal literal or a fraction for such a register is the image of the `V` value. -/
def TraceValue.image (isV : Bool) : TraceValue → Image
  | .literal p q => F32.ieee32.ofLit p q
  | .integer k => if isV then F32.ieee32.ofNat k else BitVec.ofNat 32 k
  | .raw w => w

/-- A line of a trace; `ticks` and `ticksRepeated` are the two pseudo-commands. -/
inductive TraceLine where
  | reset
  | cfgw (idx : CsrIndex) (v : TraceValue)
  | csrr (idx : CsrIndex)
  | design
  | tick (v : TraceValue)
  | eos
  | serr
  | ticks (vs : List TraceValue)
  | ticksRepeated (v : TraceValue) (k : Nat)
deriving DecidableEq, Repr

/-- The commands a line stands for, unused fields zero (R81). -/
def TraceLine.expand : TraceLine → List Instr
  | .reset => [.reset 0 0]
  | .cfgw idx v => [.cfgw idx (v.image (csrIsV idx))]
  | .csrr idx => [.csrr idx 0]
  | .design => [.design 0 0]
  | .tick v => [.tick 0 (v.image true)]
  | .eos => [.eos 0 0]
  | .serr => [.serr 0 0]
  | .ticks vs => vs.map fun v => .tick 0 (v.image true)
  | .ticksRepeated v k => List.replicate k (.tick 0 (v.image true))

/-- The command word of a host command. -/
def Instr.commandWord? (i : Instr) : Option CommandWord :=
  match encode i with
  | .command w => some w
  | .phase _ => none

/-- The command words of a trace, in order. -/
def traceWords (ls : List TraceLine) : List CommandWord :=
  (ls.flatMap TraceLine.expand).filterMap Instr.commandWord?

/-- A hexadecimal digit. -/
def hexDigit (d : Nat) : Char := "0123456789ABCDEF".toList.getD d '?'

/-- A command word as 11 hexadecimal digits (R89). -/
def hexWord (w : CommandWord) : String :=
  String.ofList ((List.range 11).map fun k => hexDigit (w.toNat / 16 ^ (10 - k) % 16))

/-! ### Reading a line -/

/-- The pieces between the characters `c`. -/
def splitChars (c : Char) : List Char → List (List Char)
  | [] => [[]]
  | x :: xs =>
    match splitChars c xs with
    | [] => [[x]]
    | h :: t => if x = c then [] :: h :: t else (x :: h) :: t

/-- Without the spaces at both ends. -/
def trimChars (cs : List Char) : List Char :=
  ((cs.dropWhile fun c => c.isWhitespace).reverse.dropWhile fun c => c.isWhitespace).reverse

/-- A digit of a number in base 10 or 16. -/
def digitOf (base : Nat) (c : Char) : Option Nat :=
  let k := c.toNat
  let d := if 48 ≤ k ∧ k ≤ 57 then k - 48 else if 65 ≤ k ∧ k ≤ 70 then k - 55 else if 97 ≤ k ∧ k ≤ 102 then k - 87
    else base
  if d < base then some d else none

/-- A numeral of one digit or more. -/
def numeral (base : Nat) (cs : List Char) : Option Nat :=
  if cs.isEmpty then none
  else cs.foldl (fun acc c => acc.bind fun n => (digitOf base c).map fun d => n * base + d) (some 0)

/-- `0x` and hexadecimal digits, `n` of them. -/
def hexNumeral (n : Nat) : List Char → Option Nat
  | '0' :: 'x' :: cs => if cs.length = n then numeral 16 cs else none
  | _ => none

/-- A sign before a number. -/
def signedNumeral (number : List Char → Option Nat) : List Char → Option Int
  | '-' :: cs => (number cs).map fun n => -(n : Int)
  | '+' :: cs => (number cs).map Int.ofNat
  | cs => (number cs).map Int.ofNat

/-- A decimal literal with a point or an exponent, as a fraction. DESIGN CHOICE (log 24): a fraction has no negative
zero, so `-0.0` reads as `0/1` and its image is `+0`; the spec states no sign for it. -/
def decimalLiteral (cs : List Char) : Option TraceValue :=
  let scaled (m : List Char) (e : Int) : Option TraceValue :=
    match splitChars '.' m with
    | [a, b] =>
      (signedNumeral (fun a => numeral 10 (a ++ b)) a).map fun p =>
        let k := e - b.length
        .literal (p * 10 ^ k.toNat) (10 ^ (-k).toNat)
    | [a] => (signedNumeral (numeral 10) a).map fun p => .literal (p * 10 ^ e.toNat) (10 ^ (-e).toNat)
    | _ => none
  match splitChars 'e' (cs.map fun c => if c = 'E' then 'e' else c) with
  | [m] => if m.contains '.' then scaled m 0 else none
  | [m, e] => (signedNumeral (numeral 10) e).bind (scaled m)
  | _ => none

/-- `<value>` as R89 gives it: a raw image of exactly eight hexadecimal digits, an exact fraction, a decimal integer or a
decimal literal. A shorter raw image is `cfgwValue`'s alone (log 22). -/
def traceValue (cs : List Char) : Option TraceValue :=
  let cs := trimChars cs
  match hexNumeral 8 cs with
  | some w => some (.raw (BitVec.ofNat 32 w))
  | none =>
    match splitChars '/' cs with
    | [p, q] =>
      (signedNumeral (numeral 10) p).bind fun p =>
        (numeral 10 q).bind fun q => if q = 0 then none else some (.literal p q)
    | _ =>
      match numeral 10 cs with
      | some k => some (.integer k)
      | none => decimalLiteral cs

/-- `0x` and one to seven hexadecimal digits, with zeros above them. -/
def shortImage (cs : List Char) : Option TraceValue :=
  match trimChars cs with
  | '0' :: 'x' :: ds => if ds.length < 8 then (numeral 16 ds).map fun w => .raw (BitVec.ofNat 32 w) else none
  | _ => none

/-- The `<value>` of a CFGW. DESIGN CHOICE (log 22): R89 gives a raw image eight digits, while the vectors S2 and S3 of
`95_test_vectors.md` write `CFGW MODE, 0x1` and `CFGW MODE, 0x4`; a shorter image is read for a register that is not of
type `V`, as there, and for no other. -/
def cfgwValue (idx : CsrIndex) (cs : List Char) : Option TraceValue :=
  match traceValue cs with
  | some v => some v
  | none => if csrIsV idx then none else shortImage cs

/-- `<reg>`: a register name or `0xNN`. -/
def traceReg (cs : List Char) : Option CsrIndex :=
  let cs := trimChars cs
  match hexNumeral 2 cs with
  | some k => some (BitVec.ofNat 8 k)
  | none => csrNumber (String.ofList cs)

/-- The mnemonic of a line and what follows it. -/
def mnemonicAndRest (cs : List Char) : String × List Char :=
  (String.ofList (cs.takeWhile fun c => !c.isWhitespace), cs.dropWhile fun c => !c.isWhitespace)

/-- The operands of a pseudo-command `TICKS`. -/
def ticksOperands (cs : List Char) : Option TraceLine :=
  match splitChars '*' cs with
  | [v, k] => (traceValue v).bind fun v => (numeral 10 (trimChars k)).map fun k => .ticksRepeated v k
  | [vs] => ((splitChars ',' vs).mapM traceValue).map .ticks
  | _ => none

/-- A line of a trace (R89): no line where only a comment or nothing stands, and `none` where the text is not of the
notation. -/
def traceLine (text : String) : Option (List TraceLine) :=
  let cs := trimChars (text.toList.takeWhile fun c => c != ';')
  if cs.isEmpty then some []
  else
    let (m, rest) := mnemonicAndRest cs
    let bare := (trimChars rest).isEmpty
    let line : Option TraceLine :=
      if m = "RESET" then (if bare then some .reset else none)
      else if m = "DESIGN" then (if bare then some .design else none)
      else if m = "EOS" then (if bare then some .eos else none)
      else if m = "SERR" then (if bare then some .serr else none)
      else if m = "CSRR" then (traceReg rest).map .csrr
      else if m = "TICK" then (traceValue rest).map .tick
      else if m = "TICKS" then ticksOperands rest
      else if m = "CFGW" then
        (match splitChars ',' rest with
        | [r, v] => (traceReg r).bind fun r => (cfgwValue r v).map fun v => .cfgw r v
        | _ => none)
      else none
    line.map fun l => [l]

/-- The command words of a trace given as lines of text. -/
def traceText (lines : List String) : Option (List CommandWord) :=
  (lines.mapM traceLine).map fun ls => traceWords ls.flatten

end Sys2Proof.Machine
end

