-- ==== Sys2Proof/Tests/Slice0.lean ====
section
/-! SUPPORT. Tests. Expected values are the spec's: `95_test_vectors.md` by vector name, the worked examples of the
rules, and words written out from R81, R82, R84. `test_witness_<Name>` shows that the hypotheses of
`Obligations.<Name>` are met together, one for each clause. -/

namespace Sys2Proof.Machine.Test

open Sys2Proof Sys2Proof.Machine

/-! ### Helpers -/

/-- A field of the next state. -/
def got {α : Type} (f : State → α) (r : Result) : Option α :=
  match r with
  | .next s => some (f s)
  | .fault _ => none
  | .refused _ => none

/-- The next state, or `State.reset`. -/
def stateOf (r : Result) : State :=
  match r with
  | .next s => s
  | .fault _ => State.reset
  | .refused _ => State.reset

/-- The configuration of programs P1 and P2 with `n` taps. -/
def cfgP (n : Nat) : CfgRegs V :=
  { CfgRegs.reset with
    nTaps := BitVec.ofNat 32 n, sampleRate := 0x40800000, cutoff := 0x3F800000, refPeriod := 0x3E800000
    cycPerClock := 2, cycPerBit := 4, tPeriodInit := 0x3E800000 }

def ready (c : CfgRegs V) : State := { State.reset with cfg := c }

/-- P2 after DESIGN. -/
def designed : State := stateOf (exec (.design 0 0) (ready (cfgP 1)))

/-- RUNNING with one tap of 1/2 and an oscillator that stands still: `I = 1`, `Q = -0` on every tick. -/
def still : State :=
  { designed with drv := { designed.drv with samplePeriod := 0 } }

/-- The three-tap filter of vectors F1 to F7. -/
def taps3 (hist : Memory) (cur : Nat) (m : V) : State :=
  { State.reset with
    cfg := cfgP 3, life := .running, coef := [(0, 0x3E800000), (1, 0x3F000000), (2, 0x3E800000)]
    hi := hist, hq := hist, curI := cur, curQ := cur, loc := { TickLocal.none with mI := m, mQ := m } }

/-- An oscillator state with `SAMPLE_PERIOD = 1/8` (vectors N1 to N9). -/
def nco (acc tPeriod : V) (wc : Nat) : State :=
  { State.reset with
    drv := { State.reset.drv with samplePeriod := 0x3E000000 }
    osc := { acc := acc, tPeriod := tPeriod, tPhase := 0, wc := wc } }

/-- The loop of vectors L1 to L5, with `MODE` and `S_I`; `S_Q = 1/4`. -/
def loopL (mode : Image) (sI : V) : State :=
  { State.reset with
    cfg := { CfgRegs.reset with mode := mode, phaseGain := 0x3F000000 }
    drv := { State.reset.drv with samplePeriod := 0x3E000000, integralGain := 0x40000000, freqGain := 0x3D800000 }
    osc := { State.reset.osc with tPhase := 0x3F800000, tPeriod := 0x3F000000 }
    loop := { State.reset.loop with errInt := 0x3E800000 }
    loc := { TickLocal.none with sI := sI, sQ := 0x3E800000 } }

/-- A lock detector state. -/
def lockS (mode : Image) (thr : V) (locked : Bool) (sI sQ : V) : State :=
  { State.reset with
    cfg := { CfgRegs.reset with mode := mode, lockThr := thr }
    dec := { State.reset.dec with locked := locked }
    loc := { TickLocal.none with sI := sI, sQ := sQ } }

/-- A decoder state with `HALF_THR2 = 6` and the default `AMP_THR`. -/
def dec (locked : Bool) (prev : Sign) (short : Bool) (wc : Nat) (sI : V) : State :=
  { State.reset with
    drv := { State.reset.drv with halfThr2 := 6 }
    osc := { State.reset.osc with wc := wc }
    dec := { locked := locked, prevSign := prev, short := short }
    loc := { TickLocal.none with sI := sI } }

/-- What a decoder vector shows: sign, `SHORT`, `WC`, events. -/
def decView (s : State) : (Sign × Bool × Nat) × List (Output V) := ((s.dec.prevSign, s.dec.short, s.osc.wc), s.out)

/-! ### Well-formedness: an ill-formed term for each check -/

theorem test_wf_reset : (Instr.reset 0 0).wf = true ∧ (Instr.reset 1 0).wf = false ∧
    (Instr.reset 0 1).wf = false := by decide
theorem test_wf_csrr : (Instr.csrr 0x33 0).wf = true ∧ (Instr.csrr 0x33 1).wf = false := by decide
theorem test_wf_design : (Instr.design 0 0).wf = true ∧ (Instr.design 1 0).wf = false ∧
    (Instr.design 0 1).wf = false := by decide
theorem test_wf_tick : (Instr.tick 0 0x3F800000).wf = true ∧ (Instr.tick 1 0x3F800000).wf = false := by decide
theorem test_wf_eos : (Instr.eos 0 0).wf = true ∧ (Instr.eos 1 0).wf = false ∧ (Instr.eos 0 1).wf = false := by
  decide
theorem test_wf_serr : (Instr.serr 0 0).wf = true ∧ (Instr.serr 1 0).wf = false ∧
    (Instr.serr 0 1).wf = false := by decide
theorem test_wf_others : (Instr.cfgw 0xFF 0xFFFFFFFF).wf = true ∧ Instr.acq.wf = true ∧ Instr.tlmEmit.wf = true := by
  decide

/-! ### Decoding: every constructor by a word written out from R81, R82, R84 -/

/-- RESET: 0001 00000000 and 32 zeros (P1, line 1). -/
theorem test_decode_reset :
    decodeCommand 0b00010000000000000000000000000000000000000000 = .ok (.reset 0 0) := by decide
/-- CFGW: 0010 00000001 and the data 0x40800000 (P1, `CFGW SAMPLE_RATE, 4.0`). -/
theorem test_decode_cfgw :
    decodeCommand 0b00100000000101000000100000000000000000000000 = .ok (.cfgw 0x01 0x40800000) := by decide
/-- CSRR: 0011 00110011 and 32 zeros (P1, `CSRR WC`). -/
theorem test_decode_csrr :
    decodeCommand 0b00110011001100000000000000000000000000000000 = .ok (.csrr 0x33 0) := by decide
/-- DESIGN: 0100 and 40 zeros. -/
theorem test_decode_design :
    decodeCommand 0b01000000000000000000000000000000000000000000 = .ok (.design 0 0) := by decide
/-- TICK 1.0: 0101 00000000 and 0x3F800000. -/
theorem test_decode_tick :
    decodeCommand 0b01010000000000111111100000000000000000000000 = .ok (.tick 0 0x3F800000) := by decide
/-- EOS: 0110 and 40 zeros. -/
theorem test_decode_eos :
    decodeCommand 0b01100000000000000000000000000000000000000000 = .ok (.eos 0 0) := by decide
/-- SERR: 0111 and 40 zeros. -/
theorem test_decode_serr :
    decodeCommand 0b01110000000000000000000000000000000000000000 = .ok (.serr 0 0) := by decide
theorem test_decode_phases :
    decodePhase 0b0000 = .ok .acq ∧ decodePhase 0b0001 = .ok .ncoStep ∧ decodePhase 0b0010 = .ok .mix ∧
    decodePhase 0b0011 = .ok .firI ∧ decodePhase 0b0100 = .ok .firQ ∧ decodePhase 0b0101 = .ok .loopUpdate ∧
    decodePhase 0b0110 = .ok .lockEval ∧ decodePhase 0b0111 = .ok .decStep ∧
    decodePhase 0b1000 = .ok .tlmEmit := by decide
/-- Vector S10 and the boundaries of the reserved codes (R24, R86). -/
theorem test_decode_reserved :
    decodeCommand 0x00000000000 = .error (.reservedOp 0x0) ∧ decodeCommand 0x80000000000 = .error (.reservedOp 0x8) ∧
    decodeCommand 0xF0000000000 = .error (.reservedOp 0xF) ∧ decodePhase 9 = .error (.phaseNeverTaken 9) ∧
    decodePhase 15 = .error (.phaseNeverTaken 15) := by decide
theorem test_decode_table_word :
    decodeTableWord 48 0x20B00000004 = some (.cfgw 0x0B 4) ∧ decodeTableWord 8 8 = some .tlmEmit ∧
    decodeTableWord 48 0x80000000000 = none ∧ decodeTableWord 8 9 = none := by decide
theorem test_encode : encode (.cfgw 0x10 0x3F800000) = .command 0x2103F800000 ∧ encode .decStep = .phase 7 := by decide

/-! ### The notation for traces: lines of P1, P2 and P3 with their words -/

theorem test_trace_words :
    (traceText ["RESET                       ; 10000000000", "CFGW SAMPLE_RATE, 4.0", "CFGW CYC_PER_CLOCK, 2",
      "CFGW CUTOFF, 96000.0", "CFGW MODE, 0x00000004", "DESIGN ; configured"]).map (List.map hexWord) =
    some ["10000000000", "20140800000", "20500000002", "20247BB8000", "20B00000004", "40000000000"] := by
  decide +kernel
/-- S4 and S5 among them: a reserved number has no type, `FC` has type `V`. -/
theorem test_trace_words_more :
    (traceText ["TICKS 1.0, -1.0, 1/2", "TICKS 5e-1 * 2", "CSRR WC", "CFGW 0x7F, 5", "CFGW FC, 1.0", "EOS",
      "; end", "SERR"]).map (List.map hexWord) =
    some ["5003F800000", "500BF800000", "5003F000000", "5003F000000", "5003F000000", "33300000000", "27F00000005",
      "2103F800000", "60000000000", "70000000000"] := by decide +kernel
/-- S2 and S3 as they are written: a raw image of one digit. -/
theorem test_trace_short_image :
    (traceText ["CFGW MODE, 0x1", "CFGW MODE, 0x4"]).map (List.map hexWord) = some ["20B00000001", "20B00000004"] := by
  decide +kernel
theorem test_trace_rejects :
    ["JUMP", "CFGW N_TAPS", "TICK 1.0.0", "CSRR NAME", "TICK 0x3F8", "CFGW CUTOFF, 0x1", "CFGW MODE, 0x"].map traceLine =
      [none, none, none, none, none, none, none] := by decide +kernel
theorem test_trace_names : csrNumber "TPERIOD_INIT" = some 0x0C ∧ csrNumber "T_ERRC" = some 0x4B := by decide

/-! ### Arithmetic: images the spec states -/

/-- The images of the literals (R36) and of `TWO_PI` (R9). -/
theorem test_literal_images :
    F32.ofLit 15 100 = 0x3E19999A ∧ F32.ofLit 38 100 = 0x3EC28F5C ∧ F32.ofLit 12 10 = 0x3F99999A ∧
    F32.ofLit 25 100 = 0x3E800000 ∧ F32.ofNat 192000 = 0x483B8000 ∧ F32.ieee32.twoPi = 0x40C90FDB := by decide
/-- `SAMPLE_PERIOD = fdiv(1, 192000) = 0x36AEC33E` (`95_test_vectors.md`, derived constants). -/
theorem test_div_sample_period : F32.div (F32.ofNat 1) 0x483B8000 = 0x36AEC33E := by decide
/-- R9: any comparison with a NaN is false, and the zeros compare equal. -/
theorem test_comparisons :
    F32.gt 0x7FC00000 0 = false ∧ F32.ge 0 0x7FC00000 = false ∧ F32.eq 0x7FC00000 0x7FC00000 = false ∧
    F32.eq 0x80000000 0 = true ∧ F32.gt 0 0x80000000 = false := by decide
/-- R9: subnormals are kept. Half of the smallest normal number, and the smallest subnormal doubled. -/
theorem test_subnormals :
    F32.mul 0x00800000 0x3F000000 = 0x00400000 ∧ F32.add 0x00000001 0x00000001 = 0x00000002 := by decide
/-- R64: the adapter's byte order. -/
theorem test_sample_adapter :
    assembleSample .little 0x00 0x00 0x80 0x3F = 0x3F800000 ∧
    assembleSample .big 0x3F 0x80 0x00 0x00 = 0x3F800000 := by decide

/-! ### The host commands -/

/-- S1. -/
theorem test_reset_images :
    [0x01, 0x07, 0x08, 0x09, 0x0A, 0x00, 0x20].map State.reset.csrRead =
      [0x483B8000, 0x3E19999A, 0x3EC28F5C, 0x3F99999A, 0x3E800000, 0, 0] := by decide
theorem test_reset_leaves_halted :
    got (fun s => (s.status, s.cfg, s.out)) (exec (.reset 0 0) (stateOf (exec (.eos 0 0) designed))) =
      some (0, CfgRegs.reset, []) := by decide
/-- S3. -/
theorem test_cfgw_mode :
    got (fun s => discSignZero (s.csrRead 0x0B)) (exec (.cfgw 0x0B 0x4) State.reset) = some (some .pos) := by decide
/-- S4 and S5. -/
theorem test_cfgw_elsewhere :
    exec (.cfgw 0x7F 5) State.reset = .next State.reset ∧
    exec (.cfgw 0x10 0x3F800000) State.reset = .next State.reset := by constructor <;> rfl
/-- `STATUS` at the end of P4: `LIFE = 2`, `SHORT`, `PREV_SIGN = -1` is 0x3A. -/
theorem test_csrr_status :
    got State.out (exec (.csrr 0x20 0)
      { State.reset with life := .halted, dec := { locked := false, prevSign := .neg, short := true } }) =
      some [.response (.word 0x3A)] := by decide
theorem test_csrr_reserved : got State.out (exec (.csrr 0x7F 0) designed) = some [.response (.word 0)] := by decide
/-- G1, and the constants of P2. -/
theorem test_design_one_tap :
    (designed.life, designed.coef, designed.drv) =
      (.running, [(0, 0x3F000000)],
        { fc := 0x3F000000, samplePeriod := 0x3E800000, integralGain := 0, freqGain := 0, halfThr2 := 6 }) := by decide
/-- G8 and P3. -/
theorem test_design_nyquist :
    got (fun s => [s.csrRead 0x20, s.csrRead 0x21, s.csrRead 0x22, s.csrRead 0x10, s.csrRead 0x11])
      (exec (.design 0 0) (ready { cfgP 3 with sampleRate := 0x483B8000, cutoff := 0x47BB8000 })) =
      some [2, 1, 1, 0x3F800000, 0] := by decide
/-- R239: on an `FC` that is not finite (a zero `SAMPLE_RATE`) NumericFault is recorded, not ConfigurationError; with a
finite `FC` of 1 and a zero `REF_PERIOD` it is ConfigurationError. -/
theorem test_design_first_fault :
    got State.recorded (exec (.design 0 0) (ready { cfgP 3 with sampleRate := 0 })) = some (some .numericFault) ∧
    got State.recorded (exec (.design 0 0)
      (ready { cfgP 3 with sampleRate := 0x40000000, refPeriod := 0 })) = some (some .configurationError) := by decide
/-- The derived constants of `95_test_vectors.md`. -/
theorem test_design_derived :
    ({ cfgP 1 with
        sampleRate := 0x41000000, cutoff := 0x40000000, refPeriod := 0x3F000000
        phaseGain := 0x3F000000 } : CfgRegs V).derived F32.ieee32 =
      { fc := 0x3F000000, samplePeriod := 0x3E000000, integralGain := 0x3F99999A, freqGain := 0x3D800000,
        halfThr2 := 6 } := by decide
/-- P2, tick 1, on an oscillator that stands still. -/
theorem test_tick_first :
    got (fun s => ((s.dec, s.loop.lockM, s.out.dropLast, s.hi) : _ × _ × _ × _))
      (exec (.tick 0 0x3F800000) still) =
      some ({ locked := true, prevSign := .pos, short := true }, 0x3E800000, [.event .lockAcq],
        [(0, 0x3F800000)]) := by decide +kernel
/-- P2, tick 19: three events, then the record; `x = 1`, `S_I = 1/2`, `LOCKM = 1/4`. -/
theorem test_tick_three_events :
    got (fun s => s.out) (exec (.tick 0 0x3F800000)
      { still with
        osc := { still.osc with wc := 6 }, dec := { locked := false, prevSign := .neg, short := true } }) =
      some [.event .lockAcq, .event (.bit true), .event .anomaly,
        .telemetry { tPeriod := 0x3E800000, tPhase := 0, sample := 0x3F800000, i := 0x3F800000, q := 0x80000000,
                     lock := 0x3E800000, qual := 0x3E800000, sI := 0x3F000000, sQ := 0, err := 0, errInt := 0,
                     errC := 0 }] := by decide +kernel
/-- S6. -/
theorem test_eos :
    got (fun s => (s.haltedPin, s.cause, s.exitCodePin, s.out)) (exec (.eos 0 0) designed) =
      some (true, .none, 0, []) := by decide
/-- S7. -/
theorem test_serr :
    got (fun s => (s.haltedPin, s.cause, s.exitCodePin, s.out)) (exec (.serr 0 0) designed) =
      some (true, .streamError, 1, []) := by decide
/-- S9. -/
theorem test_tick_unadmitted : exec (.tick 0 0) State.reset = .next State.reset := by rfl

/-! ### The micro-operations -/

/-- R208: `data = 0x3F800000` gives `x = 1`. -/
theorem test_acq :
    got (fun s => (s.loc.x, s.ph)) (exec .acq { still with loc := { TickLocal.none with data := 0x3F800000 } }) =
      some (0x3F800000, 1) := by decide
/-- N9: landing on 2π does not wrap; N3: the next step wraps and counts one. -/
theorem test_nco_wrap :
    got (fun s => (s.osc.acc, s.osc.wc)) (exec .ncoStep (nco 0 0x3E000000 0)) = some (0x40C90FDB, 0) ∧
    got (fun s => (s.osc.acc, s.osc.wc)) (exec .ncoStep (nco 0x40C90FDB 0x3E000000 5)) =
      some (0x40C90FDB, 6) := by decide
/-- N8 and R42. -/
theorem test_nco_saturates :
    got (fun s => (s.osc.wc, s.wcOvf)) (exec .ncoStep (nco 0x40C90FDB 0x3E000000 0xFFFFFFFF)) =
      some (0xFFFFFFFF, true) := by decide
/-- R239: the division comes before the wrap (a period of zero at a full counter), and a fault recorded earlier in the
command stays. -/
theorem test_nco_first_fault :
    got (fun s => (s.recorded, s.numFault, s.wcOvf)) (exec .ncoStep (nco 0 0 0xFFFFFFFF)) =
      some (some .numericFault, true, true) ∧
    got State.recorded (exec .ncoStep (nco 0x40C90FDB 0x3E000000 0xFFFFFFFF)) = some (some .counterOverflow) ∧
    got State.recorded (exec .ncoStep { nco 0 0 0 with recorded := some .counterOverflow }) =
      some (some .counterOverflow) := by decide
/-- M2. -/
theorem test_mix :
    got (fun s => (s.loc.mI, s.loc.mQ))
      (exec .mix { State.reset with
        loc := { TickLocal.none with x := 0x3F000000, i := 0xBF800000, q := 0x3F000000 } }) =
      some (0xBF000000, 0x3E800000) := by decide
/-- M3: +0 and -0. -/
theorem test_mix_zero :
    got (fun s => (s.loc.mI, s.loc.mQ, s.numFault))
      (exec .mix { State.reset with loc := { TickLocal.none with i := 0x3F000000, q := 0xBF000000 } }) =
      some (0, 0x80000000, false) := by decide
/-- F2. -/
theorem test_firI_pairs_newest_with_zero :
    got (fun s => (s.hi, s.curI, s.loc.sI)) (exec .firI (taps3 [(0, 0x3F800000)] 1 0x40000000)) =
      some ([(0, 0x3F800000), (1, 0x40000000)], 2, 0x3F800000) := by decide
/-- F3: the cursor wraps. -/
theorem test_firI_cursor_wraps :
    got (fun s => (s.curI, s.loc.sI, s.curQ))
      (exec .firI (taps3 [(0, 0x3F800000), (1, 0x40000000)] 2 0x40400000)) = some (0, 0x40000000, 2) := by decide
/-- F4, first call: 3/4 whatever the oldest entry was. -/
theorem test_firQ_overwrites_oldest :
    got (fun s => (s.curQ, s.loc.sQ))
      (exec .firQ (taps3 [(0, 0x40E00000), (1, 0xC0400000), (2, 0x40A00000)] 2 0x40000000)) =
      some (0, 0x3F400000) := by decide
/-- F7: zero is stored, which leaves no entry. -/
theorem test_firQ_stores_zero :
    got (fun s => (s.hq, s.curQ, s.loc.sQ))
      (exec .firQ (taps3 [(0, 0x3F800000), (1, 0x40000000), (2, 0x40400000)] 0 0)) =
      some ([(1, 0x40000000), (2, 0x40400000)], 1, 0x40000000) := by decide
/-- L2: `err = -1/4`, `ERRINT = 7/32`, `errc = 3/16`, `TPHASE = 35/32`, `TPERIOD = 125/256`. -/
theorem test_loop_negative :
    got (fun s => [s.loc.err, s.loop.errInt, s.loc.errC, s.osc.tPhase, s.osc.tPeriod])
      (exec .loopUpdate (loopL 0 0xBF000000)) =
      some [0xBE800000, 0x3E600000, 0x3E400000, 0x3F8C0000, 0x3EFA0000] := by decide
/-- L4: `DISC_SIGN_ZERO = 0` and `S_I = 0`: `ERRINT = 1/4`, `errc = 1/2`, `TPHASE = 5/4`, `TPERIOD = 15/32`. -/
theorem test_loop_sign_zero :
    got (fun s => [s.loc.err, s.loop.errInt, s.loc.errC, s.osc.tPhase, s.osc.tPeriod])
      (exec .loopUpdate (loopL 0x2 0)) = some [0, 0x3E800000, 0x3F000000, 0x3FA00000, 0x3EF00000] := by decide
/-- K4. -/
theorem test_lock_lost :
    got (fun s => (s.loop.lockM, s.dec.locked, s.out)) (exec .lockEval (lockS 0 0x3E19999A true 0 0x3F000000)) =
      some (0xBE800000, false, [.event (.lockLost 0xBE800000)]) := by decide
/-- K2 (`SUM`), and K5: equality is unlocked. -/
theorem test_lock_sum_and_equality :
    got (fun s => (s.loop.lockM, s.loop.qualM, s.out))
      (exec .lockEval (lockS 1 0x3E19999A false 0x3F000000 0x3E800000)) =
      some (0x3E400000, 0x3EA00000, [.event .lockAcq]) ∧
    got (fun s => (s.loop.lockM, s.dec.locked, s.out)) (exec .lockEval (lockS 0 0x3E800000 false 0x3F000000 0)) =
      some (0x3E800000, false, []) := by decide
/-- D1, D2, D3, D4. -/
theorem test_dec_table :
    [(false, 2), (true, 2), (false, 4), (true, 4)].map
      (fun c => got decView (exec .decStep (dec true .pos c.1 c.2 0xBF000000))) =
      [some ((.neg, true, 0), []), some ((.neg, false, 0), [.event (.bit false)]),
        some ((.neg, false, 0), [.event (.bit true)]),
        some ((.neg, false, 0), [.event (.bit true), .event .anomaly])] := by decide
/-- D5 (equality is short), D7, D8 and D8d. -/
theorem test_dec_dormant_and_first :
    [dec true .pos false 3 0xBF000000, dec false .pos true 9 0xBF000000, dec true .pos true 9 0x3E800000,
      dec true .zero false 0 0x3F000000].map (fun s => got decView (exec .decStep s)) =
      [some ((.neg, true, 0), []), some ((.pos, true, 9), []), some ((.pos, true, 9), []),
        some ((.pos, true, 0), [])] := by decide
/-- R92 and K4: `LOCK_LOST(-1/4)` on the event port. -/
theorem test_event_word :
    (Event.lockLost 0xBE800000).word = 0x2BE800000 ∧ (Event.bit true).word = 0x300000001 := by decide
/-- R93, R216: the first and the last field of the record. -/
theorem test_tlm :
    got (fun s => (s.tlm.word.extractLsb' 352 32, s.tlm.word.extractLsb' 0 32, s.ph, s.cmdReady))
      (exec .tlmEmit { nco 0 0x3F000000 0 with loc := { TickLocal.none with errC := 0x3E800000 } }) =
      some (0x3F000000, 0x3E800000, 0, true) := by decide

/-! ### Witnesses: the hypotheses of each statement, met together -/

/-- `designed` is RUNNING; its cursors are in range and its selectors defined: the hypotheses of EosEndsCleanly,
SerrRaisesStreamError, TickIsNineSequencerSteps and TickCompletesAndSendsInOrder. -/
theorem test_witness_running :
    designed.life = .running ∧ designed.rst = false ∧ designed.curI < designed.cfg.nTaps.toNat ∧
    designed.curQ < designed.cfg.nTaps.toNat ∧ designed.cfg.mode.extractLsb' 1 2 ≠ 0b11 ∧
    designed.cfg.mode.getLsbD 5 = false ∧ designed.cfg.mode.extractLsb' 6 2 = 0 ∧
    designed.osc.wc < 2 ^ Config.wcBits - 1 := by decide
theorem test_witness_EncodeDecodeRoundTrip :
    decode (.command 0x5003F800000) = .ok (.tick 0 0x3F800000) ∧ decode (.phase 8) = .ok .tlmEmit := by decide
theorem test_witness_StepRunsDecodedCommand :
    let s : State := { designed with cmds := [0x500BF800000, 0x60000000000] }
    s.rst = false ∧ s.cmdReady = true ∧ s.cmds = 0x500BF800000 :: [0x60000000000] ∧
      decodeCommand 0x500BF800000 = .ok (.tick 0 0xBF800000) := by decide
theorem test_witness_StepRunsSequencedMicroOp :
    let s : State := { designed with cmdReady := false, ph := 8 }
    s.rst = false ∧ s.cmdReady = false ∧ decodePhase s.ph = .ok .tlmEmit ∧ decodePhase 0 = .ok .acq := by decide
theorem test_witness_StepWaitsOrIgnoresReservedWord :
    (designed.rst = false ∧ designed.cmdReady = true ∧ designed.cmds = []) ∧
    (let s : State := { designed with cmds := [0x00000000000, 0x8FFFFFFFFFF] }
     s.rst = false ∧ s.cmdReady = true ∧ s.cmds = 0x00000000000 :: [0x8FFFFFFFFFF]) ∧
    decodeCommand 0x00000000000 = .error (.reservedOp 0) ∧
    decodeCommand 0x8FFFFFFFFFF = .error (.reservedOp 8) := by decide
theorem test_witness_PlacedWordIsRunNext :
    decodeTableWord 48 0x70000000000 = some (.serr 0 0) ∧ decodeTableWord 8 7 = some .decStep ∧
    decodeTableWord 4 0 = some .acq := by decide
theorem test_witness_ResetRestoresEverything_pin :
    let s : State := { designed with rst := true, numFault := true }
    s.rst = true ∧ exec (.reset 0 0) { s with rst := false } = .next State.reset := ⟨rfl, rfl⟩
theorem test_witness_ResetRestoresEverything_halted :
    let s : State := { designed with life := .halted }
    s.life = .halted ∧ exec (.reset 0 0) s = .next State.reset ∧ State.reset.life ≠ .halted :=
  ⟨rfl, rfl, by decide⟩
theorem test_witness_CfgwWritesOneRegister :
    State.reset.life = .unconfigured ∧ (0x0D : CsrIndex) ≤ 0x0D ∧ (0x0D : CsrIndex) < 0x0E := by decide
theorem test_witness_CsrrAnswersAndChangesNothing :
    ∀ idx ∈ ([0x0E, 0x0F, 0x15, 0x1F, 0x23, 0x2F, 0x39, 0x3F, 0x4C, 0xFF] : List CsrIndex),
      (0x0D < idx ∧ idx < 0x10) ∨ (0x14 < idx ∧ idx < 0x20) ∨ (0x22 < idx ∧ idx < 0x30) ∨
        (0x38 < idx ∧ idx < 0x40) ∨ 0x4B < idx := by decide
theorem test_witness_CfgwNumbersNameTheirRegisters : State.reset.life = .unconfigured := by decide
theorem test_witness_StateViewsShowTheState :
    let s : State := { designed with curI := 2 ^ 32 - 1, curQ := 2 ^ 32 - 1 }
    s.curI < 2 ^ 32 ∧ s.curQ < 2 ^ 32 ∧ (s.csrRead 0x37).toNat = 2 ^ 32 - 1 ∧
      exec (.cfgw 0x30 1) State.reset = .next State.reset ∧
      exec (.cfgw 0x38 1) State.reset = .next State.reset :=
  ⟨by decide, by decide, by decide, rfl, rfl⟩
theorem test_witness_UnadmittedCommandsChangeNothing :
    designed.life ≠ .unconfigured ∧ State.reset.life ≠ .running ∧
      ({ designed with life := .halted } : State).life ≠ .unconfigured := by decide
/-- G8: `fc = 1` exactly. -/
theorem test_witness_DesignRaisesConfigurationError :
    let s := ready { cfgP 3 with sampleRate := 0x483B8000, cutoff := 0x47BB8000 }
    s.life = .unconfigured ∧
      F32.ge (F32.div (F32.mul (F32.ofNat 2) s.cfg.cutoff) s.cfg.sampleRate) (F32.ofNat 1) = true ∧
      s.cause ≠ .configurationError ∧ got State.cause (exec (.design 0 0) s) = some .configurationError := by decide
/-- `fc = +∞`: the other outcome of the record (R239). -/
theorem test_witness_DesignRaisesConfigurationError_infinite :
    let s := ready { cfgP 3 with sampleRate := 0 }
    let fc := F32.div (F32.mul (F32.ofNat 2) s.cfg.cutoff) s.cfg.sampleRate
    s.life = .unconfigured ∧ F32.ge fc (F32.ofNat 1) = true ∧ F32.finite fc = false := by decide
/-- G9 (`fc` just below 1, three taps) and G3's configuration; also the hypotheses of DesignCreatesTheStateObjects. -/
theorem test_witness_DesignComputesConstantsAndCoefficients :
    ∀ c ∈ [cfgP 3, { cfgP 3 with sampleRate := 0x483B8000, cutoff := 0x47BB7F80 }],
      (ready c).life = .unconfigured ∧ (ready c).coef.wf ∧ c.wellFormed Impl.ieee32 = true ∧
        c.runnable Impl.ieee32 = true ∧
        F32.ge (F32.div (F32.mul (F32.ofNat 2) c.cutoff) c.sampleRate) (F32.ofNat 1) = false := by decide
/-- The three selections of `PREV_SIGN_RESET`, and a configuration whose `PHASE_GAIN` squared is not finite. -/
theorem test_witness_DesignCreatesTheStateObjects :
    (∀ c ∈ [cfgP 1, { cfgP 1 with mode := 0x08 }, { cfgP 1 with mode := 0x18 }, { cfgP 1 with phaseGain := 0x7F7FFFFF }],
      (ready c).life = .unconfigured ∧ c.runnable Impl.ieee32 = true ∧ (ready c).coef.wf ∧
        F32.ge (F32.div (F32.mul (F32.ofNat 2) c.cutoff) c.sampleRate) (F32.ofNat 1) = false) ∧
    F32.finite (F32.mul 0x7F7FFFFF 0x7F7FFFFF) = false ∧ designed.numFault = false ∧ designed.recorded = none := by decide
/-- One configuration for each condition of R266, at its boundary where it has one. -/
def illFormed : List (CfgRegs V) :=
  [cfgP 0, cfgP (2 ^ 24), { cfgP 1 with phaseGain := 0x7F800000 }, { cfgP 1 with sampleRate := 0xC0800000 },
    { cfgP 1 with refPeriod := 0x80000001 }, { cfgP 1 with tPeriodInit := 0x80000000 },
    { cfgP 1 with ampThr := 0x80000001 }] ++
  [{ cfgP 1 with cycPerClock := 1, cycPerBit := 0xFFFFFFFF }, { cfgP 1 with mode := 0x06 },
    { cfgP 1 with mode := 0x10 }, { cfgP 1 with mode := 0x20 }, { cfgP 1 with mode := 0x40 },
    { cfgP 1 with mode := 0x100 }]
/-- Each disjunct of the premise in turn, under the premises on `FC` and `LIFE`. -/
theorem test_witness_DesignStopsOnIllFormedConfiguration :
    (∀ c ∈ illFormed, (ready c).life = .unconfigured ∧
      F32.ge (F32.div (F32.mul (F32.ofNat 2) c.cutoff) c.sampleRate) (F32.ofNat 1) = false) ∧
    (cfgP 0).nTaps = 0 ∧ 2 ^ 24 ≤ (cfgP (2 ^ 24)).nTaps.toNat ∧ F32.finite 0x7F800000 = false ∧
    F32.gt 0 0xC0800000 = true ∧ F32.gt 0 0x80000001 = true ∧ F32.eq 0x80000000 0 = true ∧
    2 ^ 32 ≤ (1 : Image).toNat + (0xFFFFFFFF : Image).toNat ∧ (0x06 : Image).extractLsb' 1 2 = 0b11 ∧
    (0x10 : Image).extractLsb' 3 2 = 0b10 ∧ (0x20 : Image).getLsbD 5 = true ∧
    (0x40 : Image).extractLsb' 6 2 ≠ 0 ∧ (0x100 : Image).extractLsb' 8 24 ≠ 0 := by decide +kernel
/-- The greatest legal tap count and cycle sum, and both zeros of `AMP_THR`, are well-formed (R266). -/
theorem test_well_formed_boundaries :
    ∀ c ∈ [cfgP (2 ^ 24 - 1), { cfgP 1 with cycPerClock := 0, cycPerBit := 0xFFFFFFFF },
        { cfgP 1 with ampThr := 0x80000000 }, { cfgP 1 with cutoff := 0xBF800000 }],
      c.wellFormed Impl.ieee32 = true := by decide +kernel
/-- Each of the two zero divisors. With `SAMPLE_RATE = 0` a negative `CUTOFF` gives `fc = -∞`. -/
theorem test_witness_DesignRecordsZeroDivisor :
    (let c : CfgRegs V := { cfgP 1 with refPeriod := 0 }
     (ready c).life = .unconfigured ∧ c.runnable Impl.ieee32 = true ∧ F32.ge (c.fc F32.ieee32) (F32.ofNat 1) = false ∧
       F32.eq c.refPeriod 0 = true) ∧
    (let c : CfgRegs V := { cfgP 1 with sampleRate := 0, cutoff := 0xBF800000 }
     (ready c).life = .unconfigured ∧ c.runnable Impl.ieee32 = true ∧ F32.ge (c.fc F32.ieee32) (F32.ofNat 1) = false ∧
       F32.eq c.sampleRate 0 = true) := by decide
theorem test_witness_TickFeedsTheNextTick :
    still.life = .running ∧ ∃ t, exec (.tick 0 0x3F800000) still = .next t := by
  refine ⟨by decide, ?_⟩
  have h : (got (fun _ => ()) (exec (.tick 0 0x3F800000) still)).isSome = true := by decide +kernel
  revert h
  cases exec (.tick 0 0x3F800000) still with
  | next t => intro _; exact ⟨t, rfl⟩
  | fault _ => intro h; cases h
  | refused _ => intro h; cases h
/-- The filters of F3 at the last cursor, with canonical histories: FirIFiltersTheInPhaseProduct,
FirQFiltersTheQuadratureProduct, FilterOrderIsUnobservable. -/
theorem test_witness_filters :
    let s := taps3 [(0, 0x3F800000), (1, 0x40000000)] 2 0x40400000
    s.curI < s.cfg.nTaps.toNat ∧ s.curQ < s.cfg.nTaps.toNat ∧ s.hi.wf ∧ s.hq.wf := by decide
theorem test_witness_FiltersStopOffTheHistory :
    let s := taps3 [] 3 0
    s.cfg.nTaps.toNat ≤ s.curI ∧ s.cfg.nTaps.toNat ≤ s.curQ := by decide
theorem test_witness_LoopUpdateCorrectsTheOscillator :
    ∀ s ∈ [loopL 0x0 0, loopL 0x2 0, loopL 0x4 0],
      s.cfg.mode.extractLsb' 1 2 ≠ 0b11 ∧ s.cfg.mode.getLsbD 5 = false ∧ s.cfg.mode.extractLsb' 6 2 = 0 := by decide
theorem test_witness_LoopUpdateStopsOnReservedMode :
    (loopL 0x20 0).cfg.mode.getLsbD 5 = true ∧ (loopL 0x80 0).cfg.mode.extractLsb' 6 2 ≠ 0 ∧
    (loopL 0x06 0).cfg.mode.extractLsb' 1 2 = 3 ∧
    ((loopL 0x04 0).cfg.mode.getLsbD 5 = false ∧ (loopL 0x04 0).cfg.mode.extractLsb' 6 2 = 0 ∧
      (loopL 0x04 0).cfg.mode.extractLsb' 1 2 ≠ 3) := by decide
/-- D7, D8b's equality at the threshold, D8c. -/
theorem test_witness_DecStepIsDormant :
    (dec false .pos true 9 0xBF000000).dec.locked = false ∧
    F32.gt (F32.abs (dec true .pos true 9 0xBEC28F5C).loc.sI) (dec true .pos true 9 0).cfg.ampThr = false ∧
    (if F32.gt (dec true .pos true 9 0x3F000000).loc.sI 0 = true then Sign.pos else Sign.neg) =
      (dec true .pos true 9 0).dec.prevSign := by decide
/-- D4, and D5 at `2w = HALF_THR2`. -/
theorem test_witness_DecStepDecodesTransitions :
    ∀ s ∈ [dec true .pos true 4 0xBF000000, dec true .pos false 3 0xBF000000, dec true .zero false 0 0x3F000000],
      s.dec.locked = true ∧ F32.gt (F32.abs s.loc.sI) s.cfg.ampThr = true ∧
        (if F32.gt s.loc.sI 0 = true then Sign.pos else Sign.neg) ≠ s.dec.prevSign := by decide
/-- An infinite sample, a zero tracked period of either sign, a TICK, and a micro-operation with and without a record. -/
theorem test_witness_NumericFaultIsRecorded :
    F32.finite 0x7F800000 = false ∧ F32.mag 0 = 0 ∧ F32.mag 0x80000000 = 0 ∧
    (∃ t, exec .mix { State.reset with loc := { TickLocal.none with x := 0x7F800000 } } = .next t) ∧
    (∃ t, exec .ncoStep (nco 0 0x80000000 0) = .next t) ∧ still.life = .running ∧
    (∃ ph, encode .mix = .phase ph) ∧ ({ still with recorded := some .numericFault } : State).recorded ≠ none ∧
    (∃ t, exec .mix { still with recorded := some .numericFault } = .next t) ∧ still.recorded = none :=
  ⟨by decide, by decide, by decide, ⟨_, rfl⟩, ⟨_, rfl⟩, by decide, ⟨_, rfl⟩, by decide, ⟨_, rfl⟩, by decide⟩
theorem test_witness_FilterReachesItsSteadyState :
    (2 : Nat) < 3 ∧ (3 : Nat) ≤ 2 + 1 ∧ Memory.wf [(0, 0x40E00000), (1, 0xC0400000), (2, 0x40A00000)] := by decide
/-- A history of real numbers, and the cursor at its last place (FilterIsAConvolution, FilterReachesItsSteadyState). -/
theorem test_witness_FilterIsAConvolution :
    Memory.canonical realNum.zero [(0, (7 : ℝ)), (2, -3)] ∧ (2 : Nat) < 3 ∧
    (let s : State ℝ := { State.initial realNum with cfg := { CfgRegs.initial realNum with nTaps := 3 }, curI := 2, curQ := 2 }
     s.curI < s.cfg.nTaps.toNat ∧ s.curQ < s.cfg.nTaps.toNat) := by
  refine ⟨⟨by simp, ?_⟩, by decide, by decide, by decide⟩
  simp [Num.zero, realNum]
theorem test_witness_DesignedCoefficientsAreSymmetric : (0 : Nat) < 2 ∧ (2 : Nat) < 3 := by decide
/-- Operands for each premise: finite, zero and not zero, sums that are exactly zero, a NaN. -/
theorem test_witness_ArithmeticIsTheExactResultRounded :
    F32.finite 0x3F800000 = true ∧ F32.finite 0x80000000 = true ∧ F32.isNaN 0x7F800001 = true ∧
    F32.toReal 0x3F800000 ≠ 0 ∧ F32.toReal 0x80000000 = 0 ∧
    F32.toReal 0x3F800000 + F32.toReal 0xBF800000 = 0 ∧ F32.toReal 0x80000000 + F32.toReal 0x80000000 = 0 := by
  have h1 : F32.signed 0x3F800000 = 2 ^ 23 ∧ F32.unit 0x3F800000 = -23 := by decide
  have h2 : F32.signed 0xBF800000 = -2 ^ 23 ∧ F32.unit 0xBF800000 = -23 := by decide
  have h3 : F32.signed 0x80000000 = 0 := by decide
  refine ⟨by decide, by decide, by decide, ?_, ?_, ?_, ?_⟩ <;> simp only [F32.toReal, h1, h2, h3] <;> norm_num
/-- IEEE 754 at the infinities: above the largest number, below the most negative, and a negative zero divisor. -/
theorem test_infinities :
    F32.gt 0x7F800000 0x7F7FFFFF = true ∧ F32.gt 0xFF7FFFFF 0xFF800000 = true ∧ F32.ge 0xFF800000 0xFF800000 = true ∧
    F32.div 0x3F800000 0x80000000 = 0xFF800000 ∧ F32.div 0xBF800000 0x7F800000 = 0x80000000 ∧
    F32.mul 0xFF800000 0x80000001 = 0x7F800000 ∧ F32.neg 0x7FC00000 = 0xFFC00000 ∧ F32.abs 0xFF800000 = 0x7F800000 := by
  decide
/-- R9: ties go to even (`2^24 + 1` and `2^24 + 3`), and half a unit past the largest number is infinity. -/
theorem test_rounding :
    F32.add 0x4B800000 0x3F800000 = 0x4B800000 ∧ F32.add 0x4B800001 0x3F800000 = 0x4B800002 ∧
    F32.add 0x7F7FFFFF 0x73000000 = 0x7F800000 ∧ F32.add 0x7F7FFFFF 0x72FFFFFF = 0x7F7FFFFF := by decide
theorem test_witness_ExactArithmeticMicroOpsFaultOnlyOnZeroPeriodOrBadSample :
    (∃ ph, encode .acq = .phase ph) ∧
      ∃ t, Impl.real.exec .acq { State.initial realNum with loc :=
        { TickLocal.initial realNum with data := 0x7F800000 } } = .next t := ⟨⟨_, rfl⟩, ⟨_, rfl⟩⟩
theorem test_witness_SineAndCosineMeetTheirBounds : F32.finite 0x40490FDB = true ∧ F32.finite 0x80000000 = true := by
  decide
/-- The state after P2's DESIGN meets the invariant (EveryStepKeepsTheInvariant, OnlyIllFormedDesignStopsARun), and so
does it with a TICK half done. -/
theorem test_witness_invariant : designed.Inv :=
  ⟨by decide, by decide, by decide, by decide, by decide, by decide, by decide, by decide⟩
theorem test_witness_invariant_mid_tick : ({ designed with cmdReady := false, ph := 4, curQ := 0 } : State).Inv :=
  ⟨by decide, by decide, by decide, by decide, by decide, by decide, by decide, by decide⟩
theorem test_witness_EveryStepKeepsTheInvariant :
    step { designed with cmds := [0x60000000000] } = .next designed.finish := rfl
/-- Both outcomes of OnlyIllFormedDesignStopsARun. -/
theorem test_witness_OnlyIllFormedDesignStopsARun :
    got State.life (step { designed with cmds := [0x60000000000] }) = some .halted ∧
    step { State.reset with cmds := [0x40000000000] } = .refused .illFormedConfig := ⟨by decide, by rfl⟩
theorem test_witness_ConfigurationIsFrozenWhileRunning :
    designed.life ≠ .unconfigured ∧ step { designed with cmds := [0x70000000000] } =
      .next (designed.clearRecord.raiseFatal Impl.ieee32 .streamError) ∧ (designed.clearRecord.raiseFatal Impl.ieee32 .streamError).life ≠ .unconfigured :=
  ⟨by decide, rfl, by decide⟩
theorem test_witness_LifecycleMovesAsListed :
    exec (.serr 0 0) designed = .next (designed.clearRecord.raiseFatal Impl.ieee32 .streamError) ∧
      (designed.clearRecord.raiseFatal Impl.ieee32 .streamError).life ≠ designed.life := ⟨rfl, by decide⟩
theorem test_witness_FaultFlagsAreSticky :
    let s : State := { designed with numFault := true, wcOvf := true, cmds := [0x10000000000] }
    step s = .next State.reset ∧ s.numFault = true ∧ State.reset.numFault = false ∧ s.wcOvf = true ∧
      State.reset.wcOvf = false := ⟨rfl, rfl, rfl, rfl, rfl⟩
theorem test_witness_WaveCounterMovesByOneOrToZero :
    got (fun s => s.osc.wc) (exec .ncoStep (nco 0x40C90FDB 0x3E000000 5)) = some 6 ∧
    got (fun s => s.osc.wc) (exec .decStep (dec true .pos true 4 0xBF000000)) = some 0 := by decide
theorem test_witness_CleanEndsAreThoseOfEos :
    designed.life = .running ∧ designed.faulted = false ∧
    exec (.eos 0 0) designed = .next designed.finish ∧ designed.finish.life = .halted ∧
    exec (.serr 0 0) designed = .next (designed.clearRecord.raiseFatal Impl.ieee32 .streamError) ∧
    (designed.clearRecord.raiseFatal Impl.ieee32 .streamError).life = .halted :=
  ⟨by decide, by decide, rfl, rfl, rfl, rfl⟩
theorem test_witness_MicroOperationsWriteOnlyTheirRegisters :
    (∃ ph, encode .decStep = .phase ph) ∧ ∃ t, exec .decStep (dec true .pos true 4 0xBF000000) = .next t :=
  ⟨⟨_, rfl⟩, ⟨_, rfl⟩⟩

end Sys2Proof.Machine.Test
end

section
/-! PROOFS. One step between commands, the machine on the default implementation, DESIGN on a zero divisor. -/

namespace Sys2Proof.Machine

/-- Settles O5: the branches of `stepOnce` and `commandStep` that the hypotheses select. -/
theorem stepRunsDecodedCommand : Obligations.StepRunsDecodedCommand := by
  intro s w rest i hrst hready hcmds hdec
  rw [step, stepOnce, if_neg (by simp [hrst]), if_pos hready, commandStep, hcmds]
  simp only [hdec]
  rfl

/-- Settles O59, by `exec_eq`: both machines are `stepOnce` of one operation. -/
theorem machineIsTheDefaultImplementation : Obligations.MachineIsTheDefaultImplementation := by
  have hexec : exec = Impl.ieee32.exec := funext₂ exec_eq
  refine ⟨exec_eq, fun s => ?_, rfl⟩
  rw [step, Impl.step, hexec]
  rfl

/-- Division by zero raises NumericFault, whatever values the line makes (R11, R41). -/
theorem raisesNumeric_of_zero_divisor {α : Type} {n : Num α} {ds : List α} {d : α} (hd : d ∈ ds)
    (h : n.feq d n.zero = true) (vs : List α) : raisesNumeric n ds vs = true := by
  rw [raisesNumeric, Bool.or_eq_true, List.any_eq_true]
  exact .inl ⟨d, hd, h⟩

/-- Settles O22: DESIGN launches the block, and its `note` has the zero among the divisors. -/
theorem designRecordsZeroDivisor : Obligations.DesignRecordsZeroDivisor := by
  intro s idx data hlife hrun hfc hzero
  have hraise : raisesNumeric F32.ieee32 [s.cfg.sampleRate, s.cfg.refPeriod]
      (s.cfg.fcMade F32.ieee32 ++ s.cfg.designMade F32.ieee32) = true := by
    rcases hzero with h | h
    · exact raisesNumeric_of_zero_divisor (List.mem_cons_self ..) (by simpa using h) _
    · exact raisesNumeric_of_zero_divisor (List.mem_cons_of_mem _ (List.mem_cons_self ..)) (by simpa using h) _
  refine ⟨_, (exec_eq _ s).trans (Impl.design_eq_next.2 (.inr (.inr ⟨hlife, hfc, hrun, rfl⟩))), ?_, ?_, ?_⟩
  · simp
  · simp [hraise]
  · simp [hraise]

end Sys2Proof.Machine
end

section
/-! PROOFS. What a step leaves alone outside UNCONFIGURED (R12, R33). -/

namespace Sys2Proof.Machine

variable {α : Type}

/-- `t` has the configuration, constants, coefficients, lifecycle and input ports of `s`: what no micro-operation
writes (R33). -/
structure State.KeepsSetup (s t : State α) : Prop where
  cfg : t.cfg = s.cfg
  drv : t.drv = s.drv
  coef : t.coef = s.coef
  life : t.life = s.life
  cause : t.cause = s.cause
  exitCode : t.exitCode = s.exitCode
  cmds : t.cmds = s.cmds
  rst : t.rst = s.rst

theorem State.KeepsSetup.trans {s t u : State α} (h : s.KeepsSetup t) (k : t.KeepsSetup u) : s.KeepsSetup u where
  cfg := k.cfg.trans h.cfg
  drv := k.drv.trans h.drv
  coef := k.coef.trans h.coef
  life := k.life.trans h.life
  cause := k.cause.trans h.cause
  exitCode := k.exitCode.trans h.exitCode
  cmds := k.cmds.trans h.cmds
  rst := k.rst.trans h.rst

/-- The nine micro-operations are the operations with a code of format U. -/
theorem microOp_cases {i : Instr} (h : ∃ ph, encode i = .phase ph) :
    i = .acq ∨ i = .ncoStep ∨ i = .mix ∨ i = .firI ∨ i = .firQ ∨ i = .loopUpdate ∨ i = .lockEval ∨ i = .decStep ∨
      i = .tlmEmit := by
  obtain ⟨ph, h⟩ := h
  cases i <;> simp [encode] at h ⊢

theorem Impl.acq_keepsSetup {p : Impl α} {s t : State α} (h : p.acq s = .next t) : s.KeepsSetup t := by
  cases h; constructor <;> rfl

theorem Impl.ncoStep_keepsSetup {p : Impl α} {s t : State α} (h : p.ncoStep s = .next t) : s.KeepsSetup t := by
  cases h; constructor <;> rfl

theorem Impl.mix_keepsSetup {p : Impl α} {s t : State α} (h : p.mix s = .next t) : s.KeepsSetup t := by
  cases h; constructor <;> rfl

theorem Impl.firI_keepsSetup [DecidableEq α] {p : Impl α} {s t : State α} (h : p.firI s = .next t) :
    s.KeepsSetup t := by
  obtain ⟨-, rfl⟩ := Impl.firI_eq_next.1 h
  constructor <;> rfl

theorem Impl.firQ_keepsSetup [DecidableEq α] {p : Impl α} {s t : State α} (h : p.firQ s = .next t) :
    s.KeepsSetup t := by
  obtain ⟨-, rfl⟩ := Impl.firQ_eq_next.1 h
  constructor <;> rfl

theorem Impl.loopUpdate_keepsSetup {p : Impl α} {s t : State α} (h : p.loopUpdate s = .next t) :
    s.KeepsSetup t := by
  obtain ⟨z, r, -, -, rfl⟩ := Impl.loopUpdate_eq_next.1 h
  constructor <;> rfl

theorem Impl.lockEval_keepsSetup {p : Impl α} {s t : State α} (h : p.lockEval s = .next t) : s.KeepsSetup t := by
  cases h; constructor <;> rfl

theorem Impl.decStep_keepsSetup {p : Impl α} {s t : State α} (h : p.decStep s = .next t) : s.KeepsSetup t := by
  obtain h' | ⟨g, -, -, -, h'⟩ := p.decStep_cases s <;>
    (cases h.symm.trans h'; constructor <;> rfl)

theorem Impl.tlmEmit_keepsSetup {p : Impl α} {s t : State α} (h : p.tlmEmit s = .next t) : s.KeepsSetup t := by
  cases h; constructor <;> rfl

/-- No micro-operation writes configuration, constants, coefficients, lifecycle or input ports (R33). -/
theorem Impl.microOp_keepsSetup [DecidableEq α] {p : Impl α} {i : Instr} {s t : State α}
    (hi : ∃ ph, encode i = .phase ph) (h : p.exec i s = .next t) : s.KeepsSetup t := by
  rcases microOp_cases hi with rfl | rfl | rfl | rfl | rfl | rfl | rfl | rfl | rfl
  · exact Impl.acq_keepsSetup h
  · exact Impl.ncoStep_keepsSetup h
  · exact Impl.mix_keepsSetup h
  · exact Impl.firI_keepsSetup h
  · exact Impl.firQ_keepsSetup h
  · exact Impl.loopUpdate_keepsSetup h
  · exact Impl.lockEval_keepsSetup h
  · exact Impl.decStep_keepsSetup h
  · exact Impl.tlmEmit_keepsSetup h

theorem State.beginTick_keepsSetup (s : State α) (data : BitVec 32) : s.KeepsSetup (s.beginTick data) := by
  constructor <;> rfl

/-- A whole TICK leaves alone what its micro-operations leave alone. -/
theorem Impl.runTick_keepsSetup [DecidableEq α] {p : Impl α} {s t : State α} (h : p.runTick s = .next t) :
    s.KeepsSetup t := by
  obtain ⟨_, _, _, _, _, _, _, _, hacq, hnco, hmix, hfirI, hfirQ, hloop, hlock, hdec, htlm⟩ :=
    Impl.runTick_eq_next.1 h
  exact (Impl.acq_keepsSetup hacq).trans <| (Impl.ncoStep_keepsSetup hnco).trans <|
    (Impl.mix_keepsSetup hmix).trans <| (Impl.firI_keepsSetup hfirI).trans <|
    (Impl.firQ_keepsSetup hfirQ).trans <| (Impl.loopUpdate_keepsSetup hloop).trans <|
    (Impl.lockEval_keepsSetup hlock).trans <| (Impl.decStep_keepsSetup hdec).trans (Impl.tlmEmit_keepsSetup htlm)

/-- R12 for one operation: between states outside UNCONFIGURED it leaves configuration, constants and coefficients. -/
theorem Impl.exec_frozen [DecidableEq α] {p : Impl α} {i : Instr} {s t : State α} (hs : s.life ≠ .unconfigured)
    (h : p.exec i s = .next t) (ht : t.life ≠ .unconfigured) :
    t.cfg = s.cfg ∧ t.drv = s.drv ∧ t.coef = s.coef := by
  have of_keepsSetup (k : s.KeepsSetup t) : t.cfg = s.cfg ∧ t.drv = s.drv ∧ t.coef = s.coef :=
    ⟨k.cfg, k.drv, k.coef⟩
  cases i with
  | reset => cases h; exact absurd rfl ht
  | cfgw =>
    obtain ⟨hu, -⟩ | ⟨-, rfl⟩ := Impl.cfgw_eq_next.1 h
    · exact absurd hu hs
    · exact ⟨rfl, rfl, rfl⟩
  | csrr => cases h; exact ⟨rfl, rfl, rfl⟩
  | design =>
    obtain ⟨-, rfl⟩ | ⟨hu, -⟩ | ⟨hu, -⟩ := Impl.design_eq_next.1 h
    · exact ⟨rfl, rfl, rfl⟩
    · exact absurd hu hs
    · exact absurd hu hs
  | tick =>
    obtain ⟨-, hrun⟩ | ⟨-, rfl⟩ := Impl.tick_eq_next.1 h
    · exact of_keepsSetup ((State.beginTick_keepsSetup s _).trans (runTick_keepsSetup hrun))
    · exact ⟨rfl, rfl, rfl⟩
  | eos => obtain ⟨-, rfl⟩ | ⟨-, rfl⟩ := eos_eq_next.1 h <;> exact ⟨rfl, rfl, rfl⟩
  | serr => obtain ⟨-, rfl⟩ | ⟨-, rfl⟩ := Impl.serr_eq_next.1 h <;> exact ⟨rfl, rfl, rfl⟩
  | _ => exact of_keepsSetup (microOp_keepsSetup ⟨_, rfl⟩ h)

/-- Settles O48, by the cases of a step: the pin resets to UNCONFIGURED, a wait or a word ignored writes no register, and
an operation is `Impl.exec_frozen`. -/
theorem configurationIsFrozenWhileRunning : Obligations.ConfigurationIsFrozenWhileRunning := by
  intro s t hs hstep ht
  obtain ⟨-, rfl⟩ | ⟨-, -, -, rfl⟩ | ⟨w, rest, -, -, -, ⟨e, -, rfl⟩ | ⟨i, -, hrun⟩⟩ | ⟨i, -, -, -, hrun⟩ :=
    step_cases hstep
  · exact absurd rfl ht
  · exact ⟨rfl, rfl, rfl⟩
  · exact ⟨rfl, rfl, rfl⟩
  · rw [exec_eq] at hrun
    exact Impl.exec_frozen (s := s.accept rest) hs hrun ht
  · rw [exec_eq] at hrun
    exact Impl.exec_frozen hs hrun ht

end Sys2Proof.Machine
end

section
/-! PROOFS. Faults of micro-operations under `NUM_REAL` (R9, R11, R23). -/

namespace Sys2Proof.Machine

@[simp] theorem realNum_zero : realNum.zero = 0 := Nat.cast_zero
@[simp] theorem realNum_finite (x : ℝ) : realNum.finite x = true := rfl
@[simp] theorem realNum_feq (x y : ℝ) : realNum.feq x y = true ↔ x = y := decide_eq_true_iff

/-- Every real number is finite (R9). -/
@[simp] theorem realNum_anyNonFinite (vs : List ℝ) : anyNonFinite realNum vs = false := by
  simp [anyNonFinite]

/-- Under `NUM_REAL` a line raises NumericFault only by dividing by zero. -/
theorem realNum_raisesNumeric (ds vs : List ℝ) : raisesNumeric realNum ds vs = true ↔ (0 : ℝ) ∈ ds := by
  simp [raisesNumeric]

@[simp] theorem realNum_raisesNumeric_nil (vs : List ℝ) : raisesNumeric realNum [] vs = false := by
  simp [raisesNumeric]

/-- The filter makes no value that is not finite under `NUM_REAL`. -/
@[simp] theorem realNum_firTaps_ok (coef hist : Nat → ℝ) (len cur k : Nat) :
    (firTaps realNum coef hist len cur k).2 = true := by
  induction k with
  | zero => rfl
  | succ k ih => simp [firTaps, ih]

@[simp] theorem realNum_fir_ok (coef hist : Memory ℝ) (len cur : Nat) (u : ℝ) :
    (fir realNum coef hist len cur u).ok = true := realNum_firTaps_ok ..

/-- An unbounded wave counter never passes its greatest value. -/
@[simp] theorem wcPasses_none (wrapped : Bool) (wc : Nat) : wcPasses none wrapped wc = false := by
  simp [wcPasses]

@[simp] theorem Impl.real_num : Impl.real.num = realNum := rfl
@[simp] theorem Impl.real_wcBits : Impl.real.wcBits = none := rfl
@[simp] theorem Impl.real_sampleDefined (w : BitVec 32) : Impl.real.sampleDefined w = F32.finite w := rfl

/-- Settles O60, one micro-operation after the other: only NCO.STEP divides, and only ACQ can meet an undefined
`ofSample`. -/
theorem exactArithmeticMicroOpsFaultOnlyOnZeroPeriodOrBadSample :
    Obligations.ExactArithmeticMicroOpsFaultOnlyOnZeroPeriodOrBadSample := by
  intro i s t hi h
  rcases microOp_cases hi with rfl | rfl | rfl | rfl | rfl | rfl | rfl | rfl | rfl
  · cases h; simp
  · cases h; simp [realNum_raisesNumeric, eq_comm (a := (0 : ℝ))]
  · cases h; simp
  · obtain ⟨-, rfl⟩ := Impl.firI_eq_next.1 h
    simp [State.afterFirI]
  · obtain ⟨-, rfl⟩ := Impl.firQ_eq_next.1 h
    simp [State.afterFirQ]
  · obtain ⟨z, r, -, -, rfl⟩ := Impl.loopUpdate_eq_next.1 h
    simp
  · cases h; simp
  · obtain h' | ⟨g, -, -, -, h'⟩ := Impl.real.decStep_cases s <;> (cases h.symm.trans h'; simp)
  · cases h; simp

end Sys2Proof.Machine
end

section
/-! PROOFS. The images of binary32: sign bit, magnitude and class of a value (R9, R64). -/

namespace Sys2Proof.Machine.F32

theorem mag_lt (v : V) : mag v < 2 ^ 31 := Nat.mod_lt _ (by decide)

/-- The sign bit of a packed value. -/
theorem msb_pack (s : Bool) {m : Nat} (h : m < 2 ^ 31) : (pack s m).msb = s := by
  cases s <;> simp only [pack, BitVec.msb_eq_decide, BitVec.toNat_ofNat, Bool.false_eq_true, if_true, if_false,
    decide_eq_true_eq, decide_eq_false_iff_not] <;> omega

theorem neg_getLsbD (v : V) (k : Nat) : (neg v).getLsbD k = (v.getLsbD k ^^ decide (k = 31)) := by
  have h : (0x80000000 : V) = BitVec.twoPow 32 31 := by decide
  rw [neg, BitVec.getLsbD_xor, h, BitVec.getLsbD_twoPow]
  simp [eq_comm]

theorem abs_getLsbD (v : V) (k : Nat) : (abs v).getLsbD k = (v.getLsbD k && decide (k < 31)) := by
  have h : (0x7FFFFFFF : V) = BitVec.ofNat 32 (2 ^ 31 - 1) := by decide
  rw [abs, BitVec.getLsbD_and, h, BitVec.getLsbD_ofNat, Nat.testBit_two_pow_sub_one]
  by_cases hk : k < 32
  · simp [hk]
  · simp [BitVec.getLsbD_of_ge v k (by omega)]

@[simp] theorem neg_msb (v : V) : (neg v).msb = !v.msb := by
  rw [BitVec.msb_eq_getLsbD_last, BitVec.msb_eq_getLsbD_last, neg_getLsbD]
  simp

@[simp] theorem abs_msb (v : V) : (abs v).msb = false := by
  rw [BitVec.msb_eq_getLsbD_last, abs_getLsbD]
  simp

/-- Values with the same bits below the sign bit have the same magnitude. -/
theorem mag_congr {v w : V} (h : ∀ k, k < 31 → v.getLsbD k = w.getLsbD k) : mag v = mag w := by
  refine Nat.eq_of_testBit_eq fun k => ?_
  rw [mag, mag, Nat.testBit_mod_two_pow, Nat.testBit_mod_two_pow]
  by_cases hk : k < 31
  · simp only [hk, decide_true, Bool.true_and]; exact h k hk
  · simp [hk]

@[simp] theorem mag_neg (v : V) : mag (neg v) = mag v :=
  mag_congr fun k hk => by simp [neg_getLsbD, show k ≠ 31 by omega]

@[simp] theorem mag_abs (v : V) : mag (abs v) = mag v :=
  mag_congr fun k hk => by simp [abs_getLsbD, hk]

/-- The biased exponent is the upper part of the magnitude. -/
theorem expField_eq (v : V) : expField v = mag v / 2 ^ 23 := by
  unfold expField mag; omega

/-- The fraction is the lower part of the magnitude. -/
theorem fracField_eq (v : V) : fracField v = mag v % 2 ^ 23 := by
  unfold fracField mag; omega

theorem finite_iff {v : V} : finite v = true ↔ mag v < infMag := decide_eq_true_iff
theorem isNaN_iff {v : V} : isNaN v = true ↔ infMag < mag v := decide_eq_true_iff

theorem isNaN_of_finite {v : V} (h : finite v = true) : isNaN v = false := by
  simp only [finite, isNaN, decide_eq_true_eq, decide_eq_false_iff_not] at *; omega

theorem isInf_of_finite {v : V} (h : finite v = true) : isInf v = false := by
  simp only [finite, isInf, decide_eq_true_eq, decide_eq_false_iff_not] at *; omega

theorem toNat_expBits (v : V) : (v.extractLsb' 23 8).toNat = mag v / 2 ^ 23 := by
  rw [← expField_eq]
  simp [BitVec.extractLsb'_toNat, Nat.shiftRight_eq_div_pow, expField]

theorem toNat_fracBits (v : V) : (v.extractLsb' 0 23).toNat = mag v % 2 ^ 23 := by
  rw [← fracField_eq]
  simp [BitVec.extractLsb'_toNat, fracField]

/-- Finite values are those whose exponent field is not all ones (R9, R85). -/
theorem finite_iff_expBits (v : V) : finite v = true ↔ v.extractLsb' 23 8 ≠ 0xFF := by
  have h := mag_lt v
  rw [finite_iff, Ne, ← BitVec.toNat_inj, toNat_expBits, show (0xFF : BitVec 8).toNat = 255 from rfl, infMag]
  omega

/-- NaNs have an exponent field of ones and a fraction (R9, R85). -/
theorem isNaN_iff_bits (v : V) :
    isNaN v = true ↔ v.extractLsb' 23 8 = 0xFF ∧ v.extractLsb' 0 23 ≠ 0 := by
  have h := mag_lt v
  rw [isNaN_iff, Ne, ← BitVec.toNat_inj, ← BitVec.toNat_inj, toNat_expBits, toNat_fracBits,
    show (0xFF : BitVec 8).toNat = 255 from rfl, show (0 : BitVec 23).toNat = 0 from rfl, infMag]
  omega

/-- Without a sign bit, a value's place in the order is its magnitude. -/
theorem key_of_msb_false {v : V} (h : v.msb = false) : key v = mag v := by simp [key, h]

end Sys2Proof.Machine.F32
end

section
/-! PROOFS. Sine and cosine (R9). -/

namespace Sys2Proof.Machine.F32

/-- `inUnit` gives a value of magnitude at most 1. -/
theorem mag_inUnit_le (v : V) : mag (inUnit v) ≤ mag one := by
  unfold inUnit
  split
  · assumption
  · decide

/-- The sine of a finite value has magnitude at most 1 (R9). -/
theorem mag_sin_le {v : V} (h : finite v = true) : mag (sin v) ≤ mag one := by
  rw [sin, if_pos h]
  split
  · decide
  · exact mag_inUnit_le _

/-- The cosine of a finite value has magnitude at most 1 (R9). -/
theorem mag_cos_le {v : V} (h : finite v = true) : mag (cos v) ≤ mag one := by
  rw [cos, if_pos h]
  split
  · exact le_rfl
  · exact mag_inUnit_le _

/-- A value of magnitude at most 1 is finite, and `fgt` does not put its absolute value above 1. -/
theorem finite_and_abs_le_one {v : V} (h : mag v ≤ mag one) :
    finite v = true ∧ gt (abs v) 0x3F800000 = false := by
  refine ⟨finite_iff.2 (h.trans_lt (by decide)), ?_⟩
  rw [gt, key_of_msb_false (abs_msb v), mag_abs, show key 0x3F800000 = (mag one : Int) by decide]
  simp [h]

/-- Settles O44: the free values pass through `inUnit`. -/
theorem sineAndCosineMeetTheirBounds : Obligations.SineAndCosineMeetTheirBounds := by
  refine ⟨by decide, by decide, fun v hv => ?_⟩
  obtain ⟨hsin, hsinle⟩ := finite_and_abs_le_one (mag_sin_le hv)
  obtain ⟨hcos, hcosle⟩ := finite_and_abs_le_one (mag_cos_le hv)
  exact ⟨hsin, hsinle, hcos, hcosle⟩

end Sys2Proof.Machine.F32
end

section
/-! PROOFS. The real numbers that magnitudes denote, and their order (R9). -/

namespace Sys2Proof.Machine.F32

/-- The real number of a magnitude, read through its exponent and fraction, with no bound on the exponent: past `infMag`
the binades go on. -/
noncomputable def magReal (m : Nat) : ℝ :=
  ((if m / 2 ^ 23 = 0 then m % 2 ^ 23 else m % 2 ^ 23 + 2 ^ 23 : Nat) : ℝ) *
    (2 : ℝ) ^ (((max (m / 2 ^ 23) 1 : Nat) : Int) - 150)

/-- `magReal` on a binade, its upper end included: the unit of binade `k` is `2 ^ (k - 149)`, and a significand below
`2 ^ 23` is a subnormal one. -/
theorem magReal_binade {k t : Nat} (ht : t ≤ 2 ^ 24) (hk : k = 0 ∨ 2 ^ 23 ≤ t) :
    magReal (k * 2 ^ 23 + t) = t * (2 : ℝ) ^ ((k : Int) - 149) := by
  unfold magReal
  rcases Nat.lt_or_ge t (2 ^ 23) with hsub | hnorm
  · obtain rfl : k = 0 := by omega
    rw [if_pos (by omega), show (0 * 2 ^ 23 + t) % 2 ^ 23 = t by omega,
      show max ((0 * 2 ^ 23 + t) / 2 ^ 23) 1 = 1 by omega]
    norm_num
  · rw [if_neg (by omega)]
    rcases Nat.lt_or_ge t (2 ^ 24) with hlt | hge
    · rw [show (k * 2 ^ 23 + t) % 2 ^ 23 + 2 ^ 23 = t by omega,
        show max ((k * 2 ^ 23 + t) / 2 ^ 23) 1 = k + 1 by omega]
      congr 2; push_cast; ring
    · obtain rfl : t = 2 ^ 24 := by omega
      rw [show (k * 2 ^ 23 + 2 ^ 24) % 2 ^ 23 + 2 ^ 23 = 2 ^ 23 by omega,
        show max ((k * 2 ^ 23 + 2 ^ 24) / 2 ^ 23) 1 = k + 2 by omega,
        show ((k + 2 : Nat) : Int) - 150 = ((k : Int) - 149) + 1 by push_cast; ring, zpow_add_one₀ two_ne_zero]
      push_cast; ring

/-- Every magnitude lies inside a binade. -/
theorem exists_binade (m : Nat) : ∃ k t, m = k * 2 ^ 23 + t ∧ t < 2 ^ 24 ∧ (k = 0 ∨ 2 ^ 23 ≤ t) :=
  ⟨m / 2 ^ 23 - 1, m - (m / 2 ^ 23 - 1) * 2 ^ 23, by omega, by omega, by omega⟩

/-- Magnitudes are ordered as the numbers they denote. -/
theorem magReal_strictMono : StrictMono magReal := by
  refine strictMono_nat_of_lt_succ fun m => ?_
  obtain ⟨k, t, rfl, ht, hk⟩ := exists_binade m
  rw [Nat.add_assoc, magReal_binade ht.le hk, magReal_binade ht (by omega)]
  gcongr
  exact Nat.lt_succ_self t

@[simp] theorem magReal_zero : magReal 0 = 0 := by simp [magReal]

theorem magReal_nonneg (m : Nat) : 0 ≤ magReal m := by
  rw [← magReal_zero]; exact magReal_strictMono.monotone (Nat.zero_le m)

/-- The midpoint past the largest number, from which R9 rounds to infinity. -/
theorem magReal_infMag_midpoint : magReal (infMag - 1) + magReal infMag = 2 * (2 ^ 128 - 2 ^ 103) := by
  rw [show infMag - 1 = 253 * 2 ^ 23 + (2 ^ 24 - 1) by decide, show infMag = 253 * 2 ^ 23 + 2 ^ 24 by decide,
    magReal_binade (by omega) (by omega), magReal_binade (by omega) (by omega)]
  norm_num

end Sys2Proof.Machine.F32
end

section
/-! PROOFS. Rounding to nearest, ties to even, among the values of a sequence (R9). -/

namespace Sys2Proof.Machine.F32

/-- `f n` is the one of `f 0, f 1, ..` that `x` rounds to, between its two neighbours: the nearer one, and of two that are
equally near the one with an even index. -/
def NearestOf (f : Nat → ℝ) (x : ℝ) (n : Nat) : Prop :=
  ∃ k, f k ≤ x ∧ x < f (k + 1) ∧
    ((n = k ∧ (2 * x < f k + f (k + 1) ∨ 2 * x = f k + f (k + 1) ∧ Even k)) ∨
      (n = k + 1 ∧ (f k + f (k + 1) < 2 * x ∨ 2 * x = f k + f (k + 1) ∧ ¬Even k)))

/-- No value of a rising sequence is nearer, and only from an even index is another one equally near. -/
theorem NearestOf.nearest {f : Nat → ℝ} (hf : StrictMono f) {x : ℝ} {n : Nat} (h : NearestOf f x n) (m : Nat) :
    |f n - x| ≤ |f m - x| ∧ (|f m - x| = |f n - x| → f m ≠ f n → Even n) := by
  obtain ⟨k, hlo, hhi, hn⟩ := h
  have hbelow : |f k - x| = x - f k := by rw [abs_sub_comm, abs_of_nonneg (by linarith)]
  have habove : |f (k + 1) - x| = f (k + 1) - x := abs_of_nonneg (by linarith)
  rcases Nat.lt_or_ge k m with hm | hm
  · have hfm : f (k + 1) ≤ f m := hf.monotone hm
    have hm' : |f m - x| = f m - x := abs_of_nonneg (by linarith)
    obtain ⟨rfl, hlt | ⟨heq, heven⟩⟩ | ⟨rfl, hgt⟩ := hn
    · rw [hm', hbelow]; exact ⟨by linarith, fun he => by linarith⟩
    · rw [hm', hbelow]; exact ⟨by linarith, fun _ _ => heven⟩
    · rw [hm', habove]; exact ⟨by linarith, fun he hne => absurd (by linarith) hne⟩
  · have hfm : f m ≤ f k := hf.monotone hm
    have hm' : |f m - x| = x - f m := by rw [abs_sub_comm, abs_of_nonneg (by linarith)]
    obtain ⟨rfl, hlt⟩ | ⟨rfl, hgt | ⟨heq, hodd⟩⟩ := hn
    · rw [hm', hbelow]; exact ⟨by linarith, fun he hne => absurd (by linarith) hne⟩
    · rw [hm', habove]; exact ⟨by linarith, fun he => by linarith⟩
    · rw [hm', habove]; exact ⟨by linarith, fun _ _ => Nat.even_add_one.2 hodd⟩

/-- The rounded index passes an odd one exactly from the midpoint on. -/
theorem NearestOf.succ_le_iff {f : Nat → ℝ} (hf : StrictMono f) {x : ℝ} {n j : Nat} (h : NearestOf f x n)
    (hj : ¬Even j) : j + 1 ≤ n ↔ f j + f (j + 1) ≤ 2 * x := by
  obtain ⟨k, hlo, hhi, hn⟩ := h
  have hj1 := hf (Nat.lt_succ_self j)
  rcases Nat.lt_trichotomy k j with hk | rfl | hk
  · have : f (k + 1) ≤ f j := hf.monotone hk
    exact ⟨fun _ => by omega, fun _ => by linarith⟩
  · obtain ⟨rfl, hlt | ⟨-, heven⟩⟩ | ⟨rfl, hgt⟩ := hn
    · exact ⟨fun _ => by omega, fun _ => by linarith⟩
    · exact absurd heven hj
    · exact ⟨fun _ => by rcases hgt with h | ⟨h, -⟩ <;> linarith, fun _ => le_rfl⟩
  · have : f (j + 1) ≤ f k := hf.monotone hk
    exact ⟨fun _ => by linarith, fun _ => by omega⟩

/-- Scaling a rounding to an integer by the unit of its binade gives a rounding to a magnitude. -/
theorem NearestOf.magReal {y : ℝ} {t k : Nat} (h : NearestOf Nat.cast y t) (hy : y < 2 ^ 24)
    (hk : k = 0 ∨ 2 ^ 23 ≤ y) :
    NearestOf magReal (y * (2 : ℝ) ^ ((k : Int) - 149)) (k * 2 ^ 23 + t) := by
  obtain ⟨f, hlo, hhi, ht⟩ := h
  have hf : f < 2 ^ 24 := by exact_mod_cast hlo.trans_lt hy
  have hkf : k = 0 ∨ 2 ^ 23 ≤ f := hk.imp_right fun h => by
    have : 2 ^ 23 < f + 1 := by exact_mod_cast h.trans_lt hhi
    omega
  have heven : Even (k * 2 ^ 23 + f) ↔ Even f := by
    rw [Nat.even_iff, Nat.even_iff]; omega
  have hu : (0 : ℝ) < (2 : ℝ) ^ ((k : Int) - 149) := by positivity
  generalize hU : (2 : ℝ) ^ ((k : Int) - 149) = u at hu ⊢
  refine ⟨k * 2 ^ 23 + f, ?_⟩
  rw [heven, Nat.add_assoc, magReal_binade hf.le hkf, magReal_binade hf (by omega), hU, ← mul_assoc, ← add_mul,
    mul_le_mul_iff_left₀ hu, mul_lt_mul_iff_left₀ hu, mul_lt_mul_iff_left₀ hu, mul_lt_mul_iff_left₀ hu,
    mul_left_inj' hu.ne']
  exact ⟨hlo, hhi, by simpa [Nat.add_assoc] using ht⟩

/-- An integer is its own rounding. -/
theorem nearestOf_natCast (n : Nat) : NearestOf Nat.cast n n :=
  ⟨n, le_rfl, by simp, .inl ⟨rfl, .inl (by push_cast; linarith)⟩⟩

/-- `shiftRne` rounds the quotient by a power of two to the nearest integer, ties to even. -/
theorem nearestOf_shiftRne (m d : Nat) : NearestOf Nat.cast ((m : ℝ) / 2 ^ d) (shiftRne m d) := by
  have hP : (0 : ℝ) < 2 ^ d := by positivity
  obtain ⟨ρ, hρ⟩ : ∃ ρ : ℝ, ((m % 2 ^ d : Nat) : ℝ) = ρ * 2 ^ d := ⟨_, (div_mul_cancel₀ _ hP.ne').symm⟩
  have hy : (m : ℝ) / 2 ^ d = (m / 2 ^ d : Nat) + ρ := by
    rw [div_eq_iff hP.ne', add_mul, ← hρ, mul_comm]
    exact_mod_cast (Nat.div_add_mod m _).symm
  have hρ0 : 0 ≤ ρ := nonneg_of_mul_nonneg_left (hρ ▸ Nat.cast_nonneg _) hP
  have hρ1 : ρ < 1 := by
    refine lt_of_mul_lt_mul_right ?_ hP.le
    rw [← hρ, one_mul]
    exact_mod_cast Nat.mod_lt m (Nat.two_pow_pos d)
  have hhalf : 2 * ρ < 1 ↔ 2 * (m % 2 ^ d) < 2 ^ d := by
    rw [← mul_lt_mul_iff_left₀ hP, mul_assoc, ← hρ, one_mul]; exact_mod_cast Iff.rfl
  have htie : 2 * ρ = 1 ↔ 2 * (m % 2 ^ d) = 2 ^ d := by
    rw [← mul_left_inj' hP.ne', mul_assoc, ← hρ, one_mul]; exact_mod_cast Iff.rfl
  refine ⟨m / 2 ^ d, by rw [hy]; linarith, by rw [hy]; push_cast; linarith, ?_⟩
  rw [hy, Nat.even_iff, shiftRne]
  push_cast
  obtain hlt | heq | hgt := lt_trichotomy (2 * ρ) 1
  · have := hhalf.1 hlt
    exact .inl ⟨if_neg (by omega), .inl (by linarith)⟩
  · have := htie.1 heq
    rcases Nat.mod_two_eq_zero_or_one (m / 2 ^ d) with heven | hodd
    · exact .inl ⟨if_neg (by omega), .inr ⟨by linarith, heven⟩⟩
    · exact .inr ⟨if_pos (by omega), .inr ⟨by linarith, by omega⟩⟩
  · have hnlt := mt hhalf.2 hgt.not_gt
    have hne := mt htie.2 hgt.ne'
    exact .inr ⟨if_pos (by omega), .inl (by linarith)⟩

/-! ### A last bit that stands for what was cut off -/

/-- `m` stands for `y` wherever only even numbers are compared with: `m` is `y`, or carries in its last bit that something
was cut off (`quotient`, `ofLit`). -/
def StandsFor (m : Nat) (y : ℝ) : Prop :=
  ∀ c : Nat, ((2 * c : ℝ) ≤ y ↔ 2 * c ≤ m) ∧ (y ≤ 2 * c ↔ m ≤ 2 * c)

/-- A quotient cut to an integer, with a last bit that says whether anything was cut off. -/
theorem standsFor_div (n : Nat) {d : Nat} (hd : 0 < d) :
    StandsFor (2 * (n / d) + if n % d = 0 then 0 else 1) (2 * n / d) := by
  intro c
  have hd' : (0 : ℝ) < d := by exact_mod_cast hd
  have hdiv := Nat.div_add_mod n d
  have hmod := Nat.mod_lt n hd
  constructor
  · have hle : (2 * c : ℝ) ≤ 2 * n / d ↔ c * d ≤ n := by
      rw [le_div_iff₀ hd', mul_assoc, mul_le_mul_iff_right₀ two_pos]; exact_mod_cast Iff.rfl
    rw [hle, ← Nat.le_div_iff_mul_le hd]
    split <;> omega
  · have hle : (2 * n / d : ℝ) ≤ 2 * c ↔ n ≤ d * c := by
      rw [div_le_iff₀ hd', mul_assoc, mul_le_mul_iff_right₀ two_pos, mul_comm]; exact_mod_cast Iff.rfl
    rw [hle]
    split
    · rename_i h0
      obtain ⟨a, rfl⟩ := Nat.dvd_of_mod_eq_zero h0
      rw [Nat.mul_div_cancel_left a hd, Nat.mul_le_mul_left_iff hd]
      omega
    · rename_i h0
      have hne : n ≠ d * c := fun h => h0 (h ▸ Nat.mul_mod_right d c)
      rw [hne.le_iff_lt, mul_comm d c, ← Nat.div_lt_iff_lt_mul hd]
      omega

/-- Rounding to an integer compares with halves of integers alone. -/
theorem NearestOf.natCast_congr {z z' : ℝ} {t : Nat} (h : NearestOf Nat.cast z t)
    (hz : ∀ c : Nat, ((c : ℝ) ≤ 2 * z ↔ (c : ℝ) ≤ 2 * z') ∧ (2 * z ≤ c ↔ 2 * z' ≤ c)) : NearestOf Nat.cast z' t := by
  obtain ⟨f, hlo, hhi, ht⟩ := h
  have hflo := (hz (2 * f)).1
  have hfhi := (hz (2 * (f + 1))).1
  have hmid := hz (2 * f + 1)
  push_cast at *
  have hmid1 : 2 * z < f + (f + 1) ↔ 2 * z' < f + (f + 1) := by
    rw [← not_le, ← not_le, ← add_assoc, ← two_mul, hmid.1]
  have hmid2 : f + (f + 1) < 2 * z ↔ f + (f + 1) < 2 * z' := by
    rw [← not_le, ← not_le, ← add_assoc, ← two_mul, hmid.2]
  have hmid3 : 2 * z = f + (f + 1) ↔ 2 * z' = f + (f + 1) := by
    rw [le_antisymm_iff, le_antisymm_iff, ← add_assoc, ← two_mul, hmid.1, hmid.2]
  refine ⟨f, ?_, ?_, ?_⟩
  · exact le_of_mul_le_mul_left (hflo.1 (by linarith)) two_pos
  · have := mt hfhi.2 (not_le.2 (by linarith))
    push_cast; linarith
  · push_cast
    rwa [← hmid1, ← hmid2, ← hmid3]

/-- Rounding at two bits or more above the last does not see what the last bit stands for. -/
theorem NearestOf.of_standsFor {m d t : Nat} {y : ℝ} (hm : StandsFor m y) (hd : 2 ≤ d)
    (h : NearestOf Nat.cast ((m : ℝ) / 2 ^ d) t) : NearestOf Nat.cast (y / 2 ^ d) t := by
  obtain ⟨e, rfl⟩ := Nat.exists_eq_add_of_le hd
  refine h.natCast_congr fun c => ?_
  obtain ⟨hle, hge⟩ := hm (c * 2 ^ e)
  have hP : (0 : ℝ) < 2 ^ (2 + e) := by positivity
  have hc : (c : ℝ) * 2 ^ (2 + e) = 2 * (2 * (c * 2 ^ e : Nat)) := by push_cast; ring
  constructor
  · rw [← mul_div_assoc, ← mul_div_assoc, le_div_iff₀ hP, le_div_iff₀ hP, hc, mul_le_mul_iff_right₀ two_pos,
      mul_le_mul_iff_right₀ two_pos, hle]
    exact_mod_cast Iff.rfl
  · rw [← mul_div_assoc, ← mul_div_assoc, div_le_iff₀ hP, div_le_iff₀ hP, hc, mul_le_mul_iff_right₀ two_pos,
      mul_le_mul_iff_right₀ two_pos, hge]
    exact_mod_cast Iff.rfl

end Sys2Proof.Machine.F32
end

section
/-! PROOFS. The real number a value denotes: its sign and the number of its magnitude (R9). -/

namespace Sys2Proof.Machine.F32

/-- The sign of a value as a factor. -/
def signFactor (neg : Bool) : ℝ := if neg then -1 else 1

@[simp] theorem abs_signFactor (s : Bool) : |signFactor s| = 1 := by cases s <;> simp [signFactor]

theorem signFactor_mul_self (s : Bool) : signFactor s * signFactor s = 1 := by cases s <;> simp [signFactor]

theorem signFactor_ne_zero (s : Bool) : signFactor s ≠ 0 := by cases s <;> simp [signFactor]

@[simp] theorem signFactor_not (s : Bool) : signFactor (!s) = -signFactor s := by cases s <;> simp [signFactor]

theorem signFactor_bne (s t : Bool) : signFactor (s != t) = signFactor s * signFactor t := by
  cases s <;> cases t <;> simp [signFactor]

theorem signif_mul_unit (v : V) : (signif v : ℝ) * (2 : ℝ) ^ unit v = magReal (mag v) := by
  rw [signif, unit, magReal, expField_eq, fracField_eq]

theorem signed_eq (v : V) : (signed v : ℝ) = signFactor v.msb * signif v := by
  unfold signed signFactor; split <;> simp

/-- A value denotes its sign times the number of its magnitude. -/
theorem toReal_eq (v : V) : toReal v = signFactor v.msb * magReal (mag v) := by
  rw [toReal, signed_eq, mul_assoc, signif_mul_unit]

theorem toReal_pack (s : Bool) {m : Nat} (h : m < 2 ^ 31) : toReal (pack s m) = signFactor s * magReal m := by
  rw [toReal_eq, msb_pack s h, mag_pack s h]

@[simp] theorem toReal_neg (v : V) : toReal (neg v) = -toReal v := by
  rw [toReal_eq, toReal_eq, neg_msb, mag_neg, signFactor_not, neg_mul]

theorem toReal_eq_zero_iff {v : V} : toReal v = 0 ↔ mag v = 0 := by
  rw [toReal_eq, mul_eq_zero, or_iff_right (signFactor_ne_zero _), ← magReal_zero,
    magReal_strictMono.injective.eq_iff]

/-- The distance of a value from a number that is not negative, with a sign: from a magnitude, the same distance when the
signs agree, more when they do not. -/
theorem abs_toReal_sub (w : V) (s : Bool) {x : ℝ} (hx : 0 ≤ x) :
    |toReal w - signFactor s * x| = if w.msb = s then |magReal (mag w) - x| else magReal (mag w) + x := by
  rw [toReal_eq]
  split
  · next h => rw [h, ← mul_sub, abs_mul, abs_signFactor, one_mul]
  · next h =>
    rw [Bool.eq_not.2 h, signFactor_not, neg_mul, ← neg_add', abs_neg, ← mul_add, abs_mul, abs_signFactor, one_mul,
      abs_of_nonneg (add_nonneg (magReal_nonneg _) hx)]

/-- A value as `IsRounded` compares it: none is nearer to `± x` than the magnitude that `x` rounds to, with that sign. -/
theorem nearest_of_nearestOf {x : ℝ} (hx : 0 < x) {m : Nat} (h : NearestOf magReal x m) (s : Bool) {v : V}
    (hs : v.msb = s) (hm : mag v = m) (w : V) :
    |toReal v - signFactor s * x| ≤ |toReal w - signFactor s * x| ∧
      (|toReal w - signFactor s * x| = |toReal v - signFactor s * x| → toReal w ≠ toReal v → Even m) := by
  subst hm
  obtain ⟨hle, heven⟩ := h.nearest magReal_strictMono (mag w)
  have hw := magReal_nonneg (mag w)
  rw [abs_toReal_sub v s hx.le, abs_toReal_sub w s hx.le, if_pos hs]
  split
  · next hsw =>
    refine ⟨hle, fun he hne => heven he fun hmag => hne ?_⟩
    rw [toReal_eq, toReal_eq, hsw, hs, hmag]
  · next hsw =>
    have hopp : |magReal (mag w) - x| ≤ magReal (mag w) + x := by
      rw [abs_le]; constructor <;> linarith
    refine ⟨hle.trans hopp, fun he hne => ?_⟩
    obtain ⟨hle0, heven0⟩ := h.nearest magReal_strictMono 0
    rw [magReal_zero, zero_sub, abs_neg, abs_of_pos hx] at hle0 heven0
    have hw0 : magReal (mag w) = 0 := by linarith
    refine heven0 (by linarith) fun hv0 => hne ?_
    rw [toReal_eq, toReal_eq, hw0, ← hv0, mul_zero, mul_zero]

theorem getLsbD_zero_eq_false_iff (v : V) : v.getLsbD 0 = false ↔ Even (mag v) := by
  rw [BitVec.getLsbD, Nat.testBit_zero, decide_eq_false_iff_not, Nat.even_iff, mag]
  omega

theorem pack_infMag (s : Bool) : pack s infMag = if s then 0xFF800000 else 0x7F800000 := by
  cases s <;> decide

theorem pack_zero (s : Bool) : pack s 0 = if s then 0x80000000 else 0 := by
  cases s <;> decide

/-- Rounding the magnitude, with the sign kept and infinity past the largest number, is rounding (R9). -/
theorem isRounded_of_nearestOf {x : ℝ} (hx : 0 < x) {m : Nat} (h : NearestOf magReal x m) (s : Bool) :
    IsRounded (signFactor s * x) (pack s (min m infMag)) := by
  have hmid : infMag ≤ m ↔ 2 ^ 128 - 2 ^ 103 ≤ x := by
    have := h.succ_le_iff magReal_strictMono (j := infMag - 1) (by decide)
    rwa [show infMag - 1 + 1 = infMag by decide, magReal_infMag_midpoint, mul_le_mul_iff_right₀ two_pos] at this
  have hM : min m infMag < 2 ^ 31 := (min_le_right _ _).trans_lt (by decide)
  rw [IsRounded, abs_mul, abs_signFactor, one_mul, abs_of_pos hx]
  refine ⟨fun hlt => ?_, fun hge => ?_, fun hle => ?_⟩
  · have hm : m < infMag := not_le.1 (mt hmid.1 (not_le.2 hlt))
    rw [min_eq_left hm.le] at hM ⊢
    refine ⟨finite_iff.2 (by rwa [mag_pack s hM]), fun w _ => ?_⟩
    rw [getLsbD_zero_eq_false_iff, mag_pack s hM]
    exact nearest_of_nearestOf hx h s (msb_pack s hM) (mag_pack s hM) w
  · cases s with
    | false => rw [min_eq_right (hmid.2 (by simpa [signFactor] using hge)), pack_infMag]; simp
    | true => simp only [signFactor, if_true] at hge; linarith
  · cases s with
    | false => simp only [signFactor, Bool.false_eq_true, if_false] at hle; linarith
    | true => rw [min_eq_right (hmid.2 (by simp only [signFactor, if_true] at hle; linarith)), pack_infMag]; simp

/-- Either zero is zero rounded. -/
theorem isRounded_zero (s : Bool) : IsRounded 0 (pack s 0) := by
  have h0 : toReal (pack s 0) = 0 := by rw [toReal_pack s (by decide), magReal_zero, mul_zero]
  refine ⟨fun _ => ⟨finite_iff.2 (by rw [mag_pack s (by decide)]; decide), fun w _ => ?_⟩, ?_, ?_⟩
  · rw [h0, sub_zero, sub_zero, abs_zero]
    exact ⟨abs_nonneg _, fun hw hne => absurd (abs_eq_zero.1 hw) hne⟩
  · intro h; norm_num at h
  · intro h; norm_num at h

end Sys2Proof.Machine.F32
end

section
/-! PROOFS. `F32.round` (R9). -/

namespace Sys2Proof.Machine.F32

/-- The exponent of the unit of the significand that `round` makes of `m` units of `2 ^ e`. -/
def roundUnit (m : Nat) (e : Int) : Int := max (e + (Nat.log2 m : Int) - 23) (-149)

/-- The significand that `round` makes of `m` units of `2 ^ e`. -/
def roundSignif (m : Nat) (e : Int) : Nat :=
  if roundUnit m e ≤ e then m * 2 ^ (e - roundUnit m e).toNat else shiftRne m (roundUnit m e - e).toNat

theorem round_zero (s : Bool) (e : Int) : round s 0 e = pack s 0 := rfl

theorem round_of_ne_zero (s : Bool) {m : Nat} (hm : m ≠ 0) (e : Int) :
    round s m e = pack s (min ((roundUnit m e + 149).toNat * 2 ^ 23 + roundSignif m e) infMag) := if_neg hm

/-- `round` keeps the sign (R9). -/
@[simp] theorem msb_round (s : Bool) (m : Nat) (e : Int) : (round s m e).msb = s := by
  rcases eq_or_ne m 0 with rfl | hm
  · exact msb_pack s (by decide)
  · rw [round_of_ne_zero s hm]
    exact msb_pack s ((min_le_right _ _).trans_lt (by decide))

/-- What `round` may be given for a number `y`: it, or a significand of at least 26 bits that stands for it. -/
def RoundsFor (m : Nat) (y : ℝ) : Prop := y = m ∨ 2 ^ 25 ≤ m ∧ StandsFor m y

/-- The number lies in the binade of what stands for it. -/
theorem RoundsFor.binade {m : Nat} {y : ℝ} (h : RoundsFor m y) (hm : m ≠ 0) :
    (2 : ℝ) ^ m.log2 ≤ y ∧ y < 2 ^ (m.log2 + 1) := by
  have hlo := Nat.log2_self_le hm
  have hhi : m < 2 ^ (m.log2 + 1) := Nat.lt_log2_self
  obtain rfl | ⟨hbig, hs⟩ := h
  · exact ⟨by exact_mod_cast hlo, by exact_mod_cast hhi⟩
  · obtain ⟨k, hk⟩ : ∃ k, m.log2 = k + 1 :=
      Nat.exists_eq_add_one_of_ne_zero fun h0 => by rw [h0] at hhi; omega
    rw [hk] at hlo hhi ⊢
    have hlow := (hs (2 ^ k)).1
    have hhigh := (hs (2 ^ (k + 1))).1
    push_cast [← pow_succ'] at hlow hhigh
    exact ⟨hlow.2 hlo, not_le.1 (mt hhigh.1 (not_le.2 hhi))⟩

/-- `roundSignif` is the number in units of `2 ^ roundUnit`, rounded to an integer. -/
theorem RoundsFor.nearestOf_roundSignif {m : Nat} {y : ℝ} (h : RoundsFor m y) (hm : m ≠ 0) (e : Int) :
    NearestOf Nat.cast (y * (2 : ℝ) ^ (e - roundUnit m e)) (roundSignif m e) := by
  unfold roundSignif
  have hbits (h25 : 2 ^ 25 ≤ m) : e + 2 ≤ roundUnit m e := by
    have := (Nat.le_log2 hm).2 h25
    unfold roundUnit; omega
  split
  · next hle =>
    obtain rfl | ⟨hbig, -⟩ := h
    · rw [← Int.toNat_of_nonneg (show 0 ≤ e - roundUnit m e by omega), zpow_natCast]
      exact_mod_cast nearestOf_natCast _
    · have := hbits hbig; omega
  · next hlt =>
    have hshift : e - roundUnit m e = -((roundUnit m e - e).toNat : Int) := by omega
    rw [hshift, zpow_neg, zpow_natCast, ← div_eq_mul_inv]
    obtain rfl | ⟨hbig, hs⟩ := h
    · exact nearestOf_shiftRne m _
    · have := hbits hbig
      exact (nearestOf_shiftRne m _).of_standsFor hs (by omega)

/-- `round` of what stands for `y`, in units of `2 ^ e`, is `± y * 2 ^ e` rounded (R9). -/
theorem RoundsFor.isRounded {m : Nat} {y : ℝ} (h : RoundsFor m y) (s : Bool) (e : Int) :
    IsRounded (signFactor s * (y * (2 : ℝ) ^ e)) (round s m e) := by
  rcases eq_or_ne m 0 with rfl | hm
  · obtain rfl | ⟨hbig, -⟩ := h
    · rw [Nat.cast_zero, zero_mul, mul_zero, round_zero]
      exact isRounded_zero s
    · omega
  obtain ⟨hlo, hhi⟩ := h.binade hm
  have hsig := h.nearestOf_roundSignif hm e
  have hypos : 0 < y := (by positivity : (0 : ℝ) < 2 ^ m.log2).trans_le hlo
  obtain ⟨k, hk⟩ : ∃ k : Nat, roundUnit m e = (k : Int) - 149 :=
    ⟨(roundUnit m e + 149).toNat, by unfold roundUnit; omega⟩
  have hmax : (k : Int) - 149 = max (e + (m.log2 : Int) - 23) (-149) := hk.symm
  have hmag : NearestOf magReal (y * (2 : ℝ) ^ e) (k * 2 ^ 23 + roundSignif m e) := by
    rw [hk] at hsig
    have hlt : y * (2 : ℝ) ^ (e - ((k : Int) - 149)) < 2 ^ 24 := calc
      _ < (2 : ℝ) ^ (m.log2 + 1) * (2 : ℝ) ^ (e - ((k : Int) - 149)) := by gcongr
      _ = (2 : ℝ) ^ ((m.log2 : Int) + 1 + (e - ((k : Int) - 149))) := by
        rw [zpow_add₀ two_ne_zero]; norm_cast
      _ ≤ (2 : ℝ) ^ (24 : Int) := zpow_le_zpow_right₀ one_le_two (by omega)
      _ = 2 ^ 24 := by norm_cast
    have hge : k = 0 ∨ 2 ^ 23 ≤ y * (2 : ℝ) ^ (e - ((k : Int) - 149)) := by
      refine or_iff_not_imp_left.2 fun hk0 => ?_
      calc
        (2 : ℝ) ^ 23 = (2 : ℝ) ^ ((m.log2 : Int) + (e - ((k : Int) - 149))) := by
          rw [show (m.log2 : Int) + (e - ((k : Int) - 149)) = 23 by omega]; norm_cast
        _ = (2 : ℝ) ^ m.log2 * (2 : ℝ) ^ (e - ((k : Int) - 149)) := by
          rw [zpow_add₀ two_ne_zero]; norm_cast
        _ ≤ _ := by gcongr
    have h := hsig.magReal hlt hge
    rwa [mul_assoc, ← zpow_add₀ two_ne_zero, sub_add_cancel] at h
  rw [round_of_ne_zero s hm, show (roundUnit m e + 149).toNat = k by omega]
  exact isRounded_of_nearestOf (by positivity) hmag s

/-- Settles O43: a natural significand stands for itself. -/
theorem roundingIsToNearest : Obligations.RoundingIsToNearest := fun s m e =>
  ⟨by rw [mul_assoc]; exact RoundsFor.isRounded (.inl rfl) s e, msb_round s m e⟩

end Sys2Proof.Machine.F32
end

section
/-! PROOFS. Comparisons are those of the real numbers, with the infinities at the ends and NaNs outside the order (R9). -/

namespace Sys2Proof.Machine.F32

/-- The real number of a place in the order. -/
noncomputable def keyReal (k : Int) : ℝ := if k < 0 then -magReal k.natAbs else magReal k.natAbs

/-- `key` puts values in the order of the real numbers. -/
theorem keyReal_strictMono : StrictMono keyReal := by
  intro j k hjk
  have hpos {a b : Nat} (h : a < b) : magReal a < magReal b := magReal_strictMono h
  unfold keyReal
  split <;> split
  · exact neg_lt_neg (hpos (by omega))
  · next hj hk =>
    have := hpos (show 0 < j.natAbs by omega)
    have := magReal_nonneg k.natAbs
    rw [magReal_zero] at *
    linarith
  · omega
  · exact hpos (by omega)

theorem keyReal_key (v : V) : keyReal (key v) = toReal v := by
  rw [toReal_eq, keyReal, key]
  cases v.msb with
  | false => simp [signFactor]
  | true =>
    rcases Nat.eq_zero_or_pos (mag v) with h0 | hpos
    · simp [h0]
    · simp [signFactor, hpos]

/-- `fgt` of numbers and infinities is the order of their places. -/
theorem gt_eq {a b : V} (ha : isNaN a = false) (hb : isNaN b = false) : gt a b = decide (key b < key a) := by
  simp [gt, ha, hb]

theorem ge_eq {a b : V} (ha : isNaN a = false) (hb : isNaN b = false) : ge a b = decide (key b ≤ key a) := by
  simp [ge, ha, hb]

theorem eq_eq {a b : V} (ha : isNaN a = false) (hb : isNaN b = false) : eq a b = decide (key a = key b) := by
  simp [eq, ha, hb]

theorem gt_iff_toReal {a b : V} (ha : finite a = true) (hb : finite b = true) :
    gt a b = true ↔ toReal b < toReal a := by
  rw [gt_eq (isNaN_of_finite ha) (isNaN_of_finite hb), decide_eq_true_iff, ← keyReal_strictMono.lt_iff_lt,
    keyReal_key, keyReal_key]

theorem ge_iff_toReal {a b : V} (ha : finite a = true) (hb : finite b = true) :
    ge a b = true ↔ toReal b ≤ toReal a := by
  rw [ge_eq (isNaN_of_finite ha) (isNaN_of_finite hb), decide_eq_true_iff, ← keyReal_strictMono.le_iff_le,
    keyReal_key, keyReal_key]

theorem eq_iff_toReal {a b : V} (ha : finite a = true) (hb : finite b = true) :
    eq a b = true ↔ toReal a = toReal b := by
  rw [eq_eq (isNaN_of_finite ha) (isNaN_of_finite hb), decide_eq_true_iff, ← keyReal_strictMono.injective.eq_iff,
    keyReal_key, keyReal_key]

end Sys2Proof.Machine.F32
end

section
/-! PROOFS. The operations on finite operands are the exact results rounded (R9). -/

namespace Sys2Proof.Machine.F32

theorem isZero_eq (v : V) : isZero v = decide (mag v = 0) := rfl

theorem signif_eq_zero_iff {v : V} : signif v = 0 ↔ mag v = 0 := by
  rw [signif, expField_eq, fracField_eq]; split <;> omega

theorem signif_lt (v : V) : signif v < 2 ^ 24 := by
  unfold signif fracField; split <;> omega

/-- The exact sum of two finite values in the smaller of their units. -/
theorem toReal_add (a b : V) :
    toReal a + toReal b =
      ((signed a * 2 ^ (unit a - min (unit a) (unit b)).toNat +
        signed b * 2 ^ (unit b - min (unit a) (unit b)).toNat : Int) : ℝ) * (2 : ℝ) ^ min (unit a) (unit b) := by
  have hpow {u e : Int} (h : e ≤ u) : (2 : ℝ) ^ u = 2 ^ (u - e).toNat * (2 : ℝ) ^ e := by
    rw [← zpow_natCast, ← zpow_add₀ two_ne_zero]; congr 1; omega
  rw [toReal, toReal, hpow (min_le_left (unit a) (unit b)), hpow (min_le_right (unit a) (unit b))]
  push_cast; ring

/-- An integer is its sign and magnitude. -/
theorem signFactor_mul_natAbs (x : Int) : signFactor (decide (x < 0)) * (x.natAbs : ℝ) = x := by
  rw [signFactor, Nat.cast_natAbs]
  rcases lt_or_ge x 0 with h | h
  · simp [h, abs_of_neg h]
  · simp [not_lt.2 h, abs_of_nonneg h]

theorem isRounded_addFinite (a b : V) : IsRounded (toReal a + toReal b) (addFinite a b) := by
  rw [toReal_add, addFinite]
  generalize signed a * _ + _ = x
  split
  · next h0 => rw [h0, Int.cast_zero, zero_mul]; exact isRounded_zero _
  · rw [← signFactor_mul_natAbs x, mul_assoc]
    exact RoundsFor.isRounded (.inl rfl) _ _

/-- An exact zero sum is `-0` only of two `-0` (R9). -/
theorem addFinite_of_sum_zero {a b : V} (h : toReal a + toReal b = 0) :
    addFinite a b = if a.msb && b.msb then 0x80000000 else 0 := by
  rw [toReal_add, mul_eq_zero, or_iff_left (by positivity), Int.cast_eq_zero] at h
  rw [addFinite, if_pos h, pack_zero]

theorem add_of_finite {a b : V} (ha : finite a = true) (hb : finite b = true) : add a b = addFinite a b := by
  simp [add, addOr, isNaN_of_finite, isInf_of_finite, ha, hb]

theorem finite_neg (v : V) : finite (neg v) = finite v := by rw [finite, finite, mag_neg]

theorem sub_of_finite {a b : V} (ha : finite a = true) (hb : finite b = true) : sub a b = addFinite a (neg b) := by
  simp [sub, addOr, isNaN_of_finite, isInf_of_finite, ha, finite_neg, hb]

theorem mul_of_finite {a b : V} (ha : finite a = true) (hb : finite b = true) :
    mul a b = round (a.msb != b.msb) (signif a * signif b) (unit a + unit b) := by
  simp [mul, isNaN_of_finite, isInf_of_finite, ha, hb]

theorem isRounded_mul {a b : V} (ha : finite a = true) (hb : finite b = true) :
    IsRounded (toReal a * toReal b) (mul a b) := by
  have hexact : toReal a * toReal b =
      signFactor (a.msb != b.msb) * ((signif a * signif b : Nat) * (2 : ℝ) ^ (unit a + unit b)) := by
    rw [toReal, toReal, signed_eq, signed_eq, signFactor_bne, zpow_add₀ two_ne_zero]
    push_cast; ring
  rw [mul_of_finite ha hb, hexact]
  exact RoundsFor.isRounded (.inl rfl) _ _

theorem div_of_finite {a b : V} (ha : finite a = true) (hb : finite b = true) (hb0 : toReal b ≠ 0) :
    div a b = round (a.msb != b.msb) (quotient (signif a) (signif b)) (unit a - unit b - 51) := by
  simp [div, isNaN_of_finite, isInf_of_finite, ha, hb, isZero_eq, mt toReal_eq_zero_iff.2 hb0]

/-- `quotient` stands for the quotient with 51 bits added. -/
theorem roundsFor_quotient {m d : Nat} (hm : m < 2 ^ 24) (hd : 0 < d) (hd' : d < 2 ^ 24) :
    RoundsFor (quotient m d) (2 * (m * 2 ^ 50 : Nat) / d) := by
  rcases Nat.eq_zero_or_pos m with rfl | hpos
  · exact .inl (by simp [quotient])
  · refine .inr ⟨?_, standsFor_div _ hd⟩
    have : 2 ^ 24 ≤ m * 2 ^ 50 / d := (Nat.le_div_iff_mul_le hd).2 (by nlinarith)
    unfold quotient; omega

theorem isRounded_div {a b : V} (ha : finite a = true) (hb : finite b = true) (hb0 : toReal b ≠ 0) :
    IsRounded (toReal a / toReal b) (div a b) := by
  have hsb : signif b ≠ 0 := mt signif_eq_zero_iff.1 (mt toReal_eq_zero_iff.2 hb0)
  have hexact : toReal a / toReal b =
      signFactor (a.msb != b.msb) *
        (2 * (signif a * 2 ^ 50 : Nat) / signif b * (2 : ℝ) ^ (unit a - unit b - 51)) := by
    have hs := signFactor_mul_self b.msb
    have hs0 := signFactor_ne_zero b.msb
    rw [toReal, toReal, signed_eq, signed_eq, signFactor_bne, zpow_sub₀ two_ne_zero, zpow_sub₀ two_ne_zero]
    field_simp
    rw [pow_two, hs]
    push_cast; ring
  rw [div_of_finite ha hb hb0, hexact]
  exact (roundsFor_quotient (signif_lt a) (Nat.pos_of_ne_zero hsb) (signif_lt b)).isRounded _ _

theorem isRounded_ofNat (k : Nat) : IsRounded (k : ℝ) (ofNat k) := by
  have h : IsRounded _ (ofNat k) := RoundsFor.isRounded (m := k) (.inl rfl) false 0
  simpa [signFactor] using h

@[simp] theorem ofLit_zero (q : Nat) : ofLit 0 q = 0 := by
  simp [ofLit, round_zero, pack_zero]

theorem isRounded_ofLit (p : Int) {q : Nat} (hq : 0 < q) : IsRounded ((p : ℝ) / q) (ofLit p q) := by
  rcases eq_or_ne p 0 with rfl | hp
  · rw [ofLit_zero]; simpa [pack_zero] using isRounded_zero false
  have hq' : (q : ℝ) ≠ 0 := by exact_mod_cast hq.ne'
  have hexact : (p : ℝ) / q = signFactor (decide (p < 0)) *
      (2 * (p.natAbs * 2 ^ (64 + Nat.log2 q) : Nat) / q * (2 : ℝ) ^ (-((64 + Nat.log2 q : Nat) : Int) - 1)) := by
    rw [← signFactor_mul_natAbs p, zpow_sub_one₀ two_ne_zero, zpow_neg, zpow_natCast, Nat.cast_mul, Nat.cast_pow,
      Nat.cast_ofNat]
    field_simp
  have hbig : 2 ^ 24 ≤ p.natAbs * 2 ^ (64 + Nat.log2 q) / q := by
    rw [Nat.le_div_iff_mul_le hq]
    calc
      2 ^ 24 * q ≤ 2 ^ 24 * 2 ^ (q.log2 + 1) := Nat.mul_le_mul_left _ Nat.lt_log2_self.le
      _ ≤ 2 ^ (64 + q.log2) := by rw [← pow_add]; exact Nat.pow_le_pow_right two_pos (by omega)
      _ ≤ p.natAbs * 2 ^ (64 + q.log2) := Nat.le_mul_of_pos_left _ (Int.natAbs_pos.2 hp)
  rw [hexact]
  exact RoundsFor.isRounded (.inr ⟨by omega, standsFor_div _ hq⟩) _ _

end Sys2Proof.Machine.F32
end

section
/-! PROOFS. NaNs, infinities and zero divisors (R9). -/

namespace Sys2Proof.Machine.F32

/-! ### NaNs -/

@[simp] theorem isNaN_neg (v : V) : isNaN (neg v) = isNaN v := by rw [isNaN, isNaN, mag_neg]

theorem isNaN_of_eq_nanOf {op : Config.FpOp} {v a b : V} (h : v = nanOf op a b) : isNaN v = true :=
  h ▸ isNaN_nanOf op a b

theorem isNaN_addOr {nan a b : V} (hn : isNaN nan = true) (h : isNaN a = true ∨ isNaN b = true) :
    isNaN (addOr nan a b) = true := by
  rw [addOr, if_pos (by simpa using h)]; exact hn

theorem isNaN_mul {a b : V} (h : isNaN a = true ∨ isNaN b = true) : isNaN (mul a b) = true := by
  rw [mul, if_pos (by simpa using h)]; exact isNaN_nanOf ..

theorem isNaN_div {a b : V} (h : isNaN a = true ∨ isNaN b = true) : isNaN (div a b) = true := by
  rw [div, if_pos (by simpa using h)]; exact isNaN_nanOf ..

theorem ge_of_isNaN {a b : V} (h : isNaN a = true ∨ isNaN b = true) : ge a b = false := by
  rcases h with h | h <;> simp [ge, h]

theorem eq_of_isNaN {a b : V} (h : isNaN a = true ∨ isNaN b = true) : eq a b = false := by
  rcases h with h | h <;> simp [eq, h]

/-! ### The infinities -/

/-- The infinity of a sign. -/
def infinity (s : Bool) : V := if s then 0xFF800000 else 0x7F800000

theorem pack_infMag_eq (s : Bool) : pack s infMag = infinity s := pack_infMag s

@[simp] theorem msb_infinity (s : Bool) : (infinity s).msb = s := by cases s <;> decide
@[simp] theorem isNaN_infinity (s : Bool) : isNaN (infinity s) = false := by cases s <;> decide
@[simp] theorem isInf_infinity (s : Bool) : isInf (infinity s) = true := by cases s <;> decide
@[simp] theorem isZero_infinity (s : Bool) : isZero (infinity s) = false := by cases s <;> decide
@[simp] theorem neg_infinity (s : Bool) : neg (infinity s) = infinity (!s) := by cases s <;> decide

@[simp] theorem key_infinity (s : Bool) : key (infinity s) = if s then -(infMag : Int) else infMag := by
  cases s <;> decide

/-- Every finite value lies between the infinities. -/
theorem key_of_finite {v : V} (h : finite v = true) : -(infMag : Int) < key v ∧ key v < infMag := by
  have := finite_iff.1 h
  unfold key; split <;> omega

/-- The infinities are the ends of the order (R9). -/
theorem compare_infinity_finite {a : V} (ha : finite a = true) (n : Bool) :
    gt (infinity n) a = !n ∧ gt a (infinity n) = n ∧ ge (infinity n) a = !n ∧ ge a (infinity n) = n ∧
      eq (infinity n) a = false ∧ eq a (infinity n) = false := by
  obtain ⟨hlo, hhi⟩ := key_of_finite ha
  have hn := isNaN_of_finite ha
  simp only [gt_eq, ge_eq, eq_eq, isNaN_infinity, hn, key_infinity]
  cases n <;> simp <;> omega

theorem compare_infinities (m n : Bool) :
    gt (infinity m) (infinity n) = (!m && n) ∧ ge (infinity m) (infinity n) = (!m || n) ∧
      eq (infinity m) (infinity n) = (m == n) := by
  cases m <;> cases n <;> decide

theorem addOr_infinity_left (nan : V) (n : Bool) {a : V} (ha : finite a = true) :
    addOr nan (infinity n) a = infinity n := by
  simp [addOr, isNaN_of_finite ha, isInf_of_finite ha]

theorem addOr_infinity_right (nan : V) (n : Bool) {a : V} (ha : finite a = true) :
    addOr nan a (infinity n) = infinity n := by
  simp [addOr, isNaN_of_finite ha, isInf_of_finite ha]

theorem sub_infinity_right (n : Bool) {a : V} (ha : finite a = true) : sub a (infinity n) = infinity (!n) := by
  rw [sub, neg_infinity, addOr_infinity_right _ _ ha]

/-- Infinities of one sign add up to it, and of two signs to a NaN. -/
theorem addOr_infinities (nan : V) (m n : Bool) :
    addOr nan (infinity m) (infinity n) = if m = n then infinity m else nan := by
  cases m <;> cases n <;> simp [addOr]

theorem sub_infinities (m n : Bool) :
    sub (infinity m) (infinity n) = if m = !n then infinity m else nanOf .sub (infinity m) (infinity n) := by
  rw [sub, neg_infinity, addOr_infinities]

theorem mul_infinity_left (n : Bool) {a : V} (ha : finite a = true) :
    mul (infinity n) a = if isZero a then nanOf .mul (infinity n) a else infinity (n != a.msb) := by
  simp [mul, isNaN_of_finite ha, pack_infMag_eq]

theorem mul_infinity_right (n : Bool) {a : V} (ha : finite a = true) :
    mul a (infinity n) = if isZero a then nanOf .mul a (infinity n) else infinity (n != a.msb) := by
  simp [mul, isNaN_of_finite ha, isInf_of_finite ha, pack_infMag_eq, bne_comm]

theorem mul_infinities (m n : Bool) : mul (infinity m) (infinity n) = infinity (m != n) := by
  simp [mul, pack_infMag_eq]

theorem div_infinity_left (n : Bool) {a : V} (ha : finite a = true) :
    div (infinity n) a = infinity (n != a.msb) := by
  simp [div, isNaN_of_finite ha, isInf_of_finite ha, pack_infMag_eq]

theorem div_infinity_right (n : Bool) {a : V} (ha : finite a = true) :
    div a (infinity n) = if n != a.msb then 0x80000000 else 0 := by
  simp [div, isNaN_of_finite ha, isInf_of_finite ha, pack_zero, bne_comm]

theorem isNaN_div_infinities (m n : Bool) : isNaN (div (infinity m) (infinity n)) = true := by
  simp [div, isNaN_nanOf]

/-- A finite value over a zero is an infinity, and a zero over a zero a NaN (R9). -/
theorem div_zero_divisor {a b : V} (ha : finite a = true) (hb : finite b = true) (hb0 : toReal b = 0) :
    div a b = if isZero a then nanOf .div a b else infinity (a.msb != b.msb) := by
  simp [div, isNaN_of_finite, isInf_of_finite, ha, hb, isZero_eq, toReal_eq_zero_iff.1 hb0, pack_infMag_eq]

theorem isZero_iff_toReal {v : V} : isZero v = true ↔ toReal v = 0 := by
  rw [isZero_eq, decide_eq_true_iff, toReal_eq_zero_iff]

end Sys2Proof.Machine.F32
end

section
/-! PROOFS. The arithmetic of `NUM_IEEE32` (R9), assembled. -/

namespace Sys2Proof.Machine.F32

/-- The clauses for two finite operands. -/
theorem finite_arithmetic {a b : V} (ha : finite a = true) (hb : finite b = true) :
    IsRounded (toReal a + toReal b) (add a b) ∧ IsRounded (toReal a - toReal b) (sub a b) ∧
    IsRounded (toReal a * toReal b) (mul a b) ∧
    (toReal b ≠ 0 → IsRounded (toReal a / toReal b) (div a b)) ∧
    (toReal a + toReal b = 0 → add a b = if a.msb && b.msb then 0x80000000 else 0) ∧
    (toReal a - toReal b = 0 → sub a b = if a.msb && !b.msb then 0x80000000 else 0) ∧
    (mul a b).msb = (a.msb != b.msb) ∧ (toReal b ≠ 0 → (div a b).msb = (a.msb != b.msb)) ∧
    (gt a b = true ↔ toReal b < toReal a) ∧ (ge a b = true ↔ toReal b ≤ toReal a) ∧
    (eq a b = true ↔ toReal a = toReal b) := by
  have hsub : toReal a - toReal b = toReal a + toReal (neg b) := by rw [toReal_neg, sub_eq_add_neg]
  refine ⟨?_, ?_, isRounded_mul ha hb, isRounded_div ha hb, fun h => ?_, fun h => ?_, ?_, fun h => ?_,
    gt_iff_toReal ha hb, ge_iff_toReal ha hb, eq_iff_toReal ha hb⟩
  · rw [add_of_finite ha hb]; exact isRounded_addFinite a b
  · rw [sub_of_finite ha hb, hsub]; exact isRounded_addFinite a (neg b)
  · rw [add_of_finite ha hb, addFinite_of_sum_zero h]
  · rw [sub_of_finite ha hb, addFinite_of_sum_zero (hsub ▸ h), neg_msb]
  · rw [mul_of_finite ha hb, msb_round]
  · rw [div_of_finite ha hb h, msb_round]

/-- Settles O56: the clauses are the lemmas on finite operands, images, bits, NaNs, infinities and zero divisors. -/
theorem arithmeticIsTheExactResultRounded : Obligations.ArithmeticIsTheExactResultRounded := by
  refine ⟨fun a b => finite_arithmetic, isRounded_ofNat, fun p q => isRounded_ofLit p, ofLit_zero, fun v => ?bits,
    fun a b h => ?nan, fun a n ha => ?infFinite, fun m n => ?infInf, fun a b ha hb hb0 => ?zeroDivisor⟩
  case bits =>
    exact ⟨⟨neg_msb v, abs_msb v⟩, fun k hk => by simp [neg_getLsbD, abs_getLsbD, hk, hk.ne],
      finite_iff_expBits v, isNaN_iff_bits v⟩
  case nan =>
    exact ⟨gt_of_isNaN h, ge_of_isNaN h, eq_of_isNaN h, isNaN_addOr (isNaN_nanOf ..) h,
      isNaN_addOr (isNaN_nanOf ..) (by rwa [isNaN_neg]), isNaN_mul h, isNaN_div h⟩
  case infFinite =>
    have ha' : finite (neg a) = true := by rwa [finite_neg]
    refine ⟨compare_infinity_finite ha n, addOr_infinity_left _ n ha, addOr_infinity_right _ n ha,
      addOr_infinity_left _ n ha', sub_infinity_right n ha, fun h0 => ?_, fun h0 => ?_,
      div_infinity_left n ha, div_infinity_right n ha⟩
    · have hz := mt isZero_iff_toReal.1 h0
      exact ⟨(mul_infinity_left n ha).trans (if_neg hz), (mul_infinity_right n ha).trans (if_neg hz)⟩
    · have hz := isZero_iff_toReal.2 h0
      exact ⟨isNaN_of_eq_nanOf ((mul_infinity_left n ha).trans (if_pos hz)),
        isNaN_of_eq_nanOf ((mul_infinity_right n ha).trans (if_pos hz))⟩
  case infInf =>
    obtain ⟨hgt, hge, heq⟩ := compare_infinities m n
    refine ⟨hgt, hge, heq, ?_, fun hne => ?_, mul_infinities m n, isNaN_div_infinities m n⟩
    · rintro rfl
      exact ⟨(addOr_infinities _ m m).trans (if_pos rfl),
        isNaN_of_eq_nanOf ((sub_infinities m m).trans (if_neg (by simp)))⟩
    · exact ⟨isNaN_of_eq_nanOf ((addOr_infinities _ m n).trans (if_neg hne)),
        (sub_infinities m n).trans (if_pos (Bool.eq_not.2 hne))⟩
  case zeroDivisor =>
    have hdiv := div_zero_divisor ha hb hb0
    exact ⟨fun h0 => hdiv.trans (if_neg (mt isZero_iff_toReal.1 h0)),
      fun h0 => isNaN_of_eq_nanOf (hdiv.trans (if_pos (isZero_iff_toReal.2 h0)))⟩

end Sys2Proof.Machine.F32
end

section
/-! PROOFS. Which micro-operation writes which register (R33), the wave counter (R23) and the sticky flags (R41, R42). -/

namespace Sys2Proof.Machine

variable {α : Type}

/-! ### An induction over the micro-operations of a TICK -/

/-- What holds before phase 0 and is carried by each micro-operation from its phase to the next holds after a TICK. -/
theorem Impl.runTick_induction [DecidableEq α] {p : Impl α} {P : Phase → State α → Prop} {s t : State α} (h0 : P 0 s)
    (hstep : ∀ i ph u v, encode i = .phase ph → p.exec i u = .next v → P ph u → P (ph + 1) v)
    (h : p.runTick s = .next t) : P 9 t := by
  obtain ⟨_, _, _, _, _, _, _, _, hacq, hnco, hmix, hfirI, hfirQ, hloop, hlock, hdec, htlm⟩ :=
    Impl.runTick_eq_next.1 h
  have h1 := hstep .acq _ _ _ rfl hacq h0
  have h2 := hstep .ncoStep _ _ _ rfl hnco h1
  have h3 := hstep .mix _ _ _ rfl hmix h2
  have h4 := hstep .firI _ _ _ rfl hfirI h3
  have h5 := hstep .firQ _ _ _ rfl hfirQ h4
  have h6 := hstep .loopUpdate _ _ _ rfl hloop h5
  have h7 := hstep .lockEval _ _ _ rfl hlock h6
  have h8 := hstep .decStep _ _ _ rfl hdec h7
  exact hstep .tlmEmit _ _ _ rfl htlm h8

/-! ### The table of R33 -/

/-- What the micro-operation `i` leaves alone of the registers and outputs that some micro-operation writes (R33). -/
structure State.LeavesOthers (i : Instr) (s t : State α) : Prop where
  acc : i ≠ .ncoStep → t.osc.acc = s.osc.acc ∧ t.wcOvf = s.wcOvf
  wc : i ≠ .ncoStep → i ≠ .decStep → t.osc.wc = s.osc.wc
  loop : i ≠ .loopUpdate → t.osc.tPeriod = s.osc.tPeriod ∧ t.osc.tPhase = s.osc.tPhase ∧ t.loop.errInt = s.loop.errInt
  lock : i ≠ .lockEval → t.loop.lockM = s.loop.lockM ∧ t.loop.qualM = s.loop.qualM ∧ t.dec.locked = s.dec.locked
  decoder : i ≠ .decStep → t.dec.prevSign = s.dec.prevSign ∧ t.dec.short = s.dec.short
  historyI : i ≠ .firI → t.hi = s.hi ∧ t.curI = s.curI
  historyQ : i ≠ .firQ → t.hq = s.hq ∧ t.curQ = s.curQ
  telemetry : i ≠ .tlmEmit → t.tlm = s.tlm ∧ t.cmdReady = s.cmdReady
  out : i ≠ .lockEval → i ≠ .decStep → i ≠ .tlmEmit → t.out = s.out

/-- Each micro-operation writes only the registers R33 lists for it. -/
theorem Impl.microOp_leavesOthers [DecidableEq α] {p : Impl α} {i : Instr} {s t : State α}
    (hi : ∃ ph, encode i = .phase ph) (h : p.exec i s = .next t) : State.LeavesOthers i s t := by
  rcases microOp_cases hi with rfl | rfl | rfl | rfl | rfl | rfl | rfl | rfl | rfl
  · cases h; constructor <;> simp
  · cases h; constructor <;> simp
  · cases h; constructor <;> simp
  · obtain ⟨-, rfl⟩ := Impl.firI_eq_next.1 h
    constructor <;> simp [State.afterFirI]
  · obtain ⟨-, rfl⟩ := Impl.firQ_eq_next.1 h
    constructor <;> simp [State.afterFirQ]
  · obtain ⟨z, r, -, -, rfl⟩ := Impl.loopUpdate_eq_next.1 h
    constructor <;> simp
  · cases h; constructor <;> simp
  · obtain h' | ⟨g, -, -, -, h'⟩ := p.decStep_cases s <;> (cases h.symm.trans h'; constructor <;> simp)
  · cases h; constructor <;> simp

/-- Settles O52: the registers of the datapath by `Impl.microOp_leavesOthers`, the rest by `Impl.microOp_keepsSetup`. -/
theorem microOperationsWriteOnlyTheirRegisters : Obligations.MicroOperationsWriteOnlyTheirRegisters := by
  intro i s t hi h
  rw [exec_eq] at h
  have hl := Impl.microOp_leavesOthers hi h
  have hk := Impl.microOp_keepsSetup hi h
  exact ⟨hl.acc, hl.wc, hl.loop, hl.lock, hl.decoder, hl.historyI, hl.historyQ, hl.telemetry, hl.out, hk.cfg, hk.drv,
    hk.coef, hk.life, hk.cause, hk.exitCode, hk.cmds, hk.rst⟩

/-! ### The wave counter -/

/-- NCO.STEP leaves `WC` or adds one (R132). -/
theorem Impl.ncoStep_wc {p : Impl α} {s t : State α} (h : p.ncoStep s = .next t) :
    t.osc.wc = s.osc.wc ∨ t.osc.wc = s.osc.wc + 1 := by
  cases h; exact wcNext_cases ..

/-- DEC.STEP leaves `WC` or sets it to zero (R189). -/
theorem Impl.decStep_wc {p : Impl α} {s t : State α} (h : p.decStep s = .next t) :
    t.osc.wc = s.osc.wc ∨ t.osc.wc = 0 := by
  obtain h' | ⟨g, -, -, -, h'⟩ := p.decStep_cases s
  · cases h.symm.trans h'; exact .inl rfl
  · cases h.symm.trans h'; exact .inr rfl

/-- A micro-operation other than NCO.STEP and DEC.STEP leaves `WC`. -/
theorem Impl.microOp_wc [DecidableEq α] {p : Impl α} {i : Instr} {s t : State α} (h : p.exec i s = .next t)
    (hi : ∃ ph, encode i = .phase ph) (hnco : i ≠ .ncoStep) (hdec : i ≠ .decStep) : t.osc.wc = s.osc.wc :=
  (microOp_leavesOthers hi h).wc hnco hdec

/-- A TICK leaves `WC`, adds one or sets it to zero: NCO.STEP may count before DEC.STEP may clear. -/
theorem Impl.runTick_wc [DecidableEq α] {p : Impl α} {s t : State α} (h : p.runTick s = .next t) :
    t.osc.wc = s.osc.wc ∨ t.osc.wc = s.osc.wc + 1 ∨ t.osc.wc = 0 := by
  obtain ⟨s1, s2, s3, s4, s5, s6, s7, s8, hacq, hnco, hmix, hfirI, hfirQ, hloop, hlock, hdec, htlm⟩ :=
    Impl.runTick_eq_next.1 h
  have h1 : s1.osc.wc = s.osc.wc := microOp_wc (i := .acq) hacq ⟨_, rfl⟩ nofun nofun
  have h3 : s3.osc.wc = s2.osc.wc := microOp_wc (i := .mix) hmix ⟨_, rfl⟩ nofun nofun
  have h4 : s4.osc.wc = s3.osc.wc := microOp_wc (i := .firI) hfirI ⟨_, rfl⟩ nofun nofun
  have h5 : s5.osc.wc = s4.osc.wc := microOp_wc (i := .firQ) hfirQ ⟨_, rfl⟩ nofun nofun
  have h6 : s6.osc.wc = s5.osc.wc := microOp_wc (i := .loopUpdate) hloop ⟨_, rfl⟩ nofun nofun
  have h7 : s7.osc.wc = s6.osc.wc := microOp_wc (i := .lockEval) hlock ⟨_, rfl⟩ nofun nofun
  have h9 : t.osc.wc = s8.osc.wc := microOp_wc (p := p) (i := .tlmEmit) htlm ⟨_, rfl⟩ nofun nofun
  have h2 := ncoStep_wc hnco
  have h8 := decStep_wc hdec
  omega

/-- How each operation moves the wave counter (R23, R132, R189). -/
theorem Impl.exec_wc [DecidableEq α] {p : Impl α} {i : Instr} {s t : State α} (h : p.exec i s = .next t) :
    t.osc.wc = s.osc.wc ∨
    (t.osc.wc = s.osc.wc + 1 ∧ (i = .ncoStep ∨ ∃ idx data, i = .tick idx data)) ∨
    (t.osc.wc = 0 ∧ (i = .decStep ∨ ∃ idx data, i = .tick idx data ∨ i = .design idx data ∨ i = .reset idx data)) := by
  cases i with
  | reset idx data => cases h; exact .inr (.inr ⟨rfl, .inr ⟨idx, data, .inr (.inr rfl)⟩⟩)
  | cfgw => obtain ⟨-, rfl⟩ | ⟨-, rfl⟩ := Impl.cfgw_eq_next.1 h <;> exact .inl rfl
  | csrr => cases h; exact .inl rfl
  | design idx data =>
    obtain ⟨-, rfl⟩ | ⟨-, -, rfl⟩ | ⟨-, -, -, rfl⟩ := Impl.design_eq_next.1 h
    · exact .inl rfl
    · exact .inl rfl
    · exact .inr (.inr ⟨rfl, .inr ⟨idx, data, .inr (.inl rfl)⟩⟩)
  | tick idx data =>
    obtain ⟨-, hrun⟩ | ⟨-, rfl⟩ := Impl.tick_eq_next.1 h
    · obtain hwc | hwc | hwc := runTick_wc hrun
      · exact .inl hwc
      · exact .inr (.inl ⟨hwc, .inr ⟨idx, data, rfl⟩⟩)
      · exact .inr (.inr ⟨hwc, .inr ⟨idx, data, .inl rfl⟩⟩)
    · exact .inl rfl
  | eos => obtain ⟨-, rfl⟩ | ⟨-, rfl⟩ := eos_eq_next.1 h <;> exact .inl rfl
  | serr => obtain ⟨-, rfl⟩ | ⟨-, rfl⟩ := Impl.serr_eq_next.1 h <;> exact .inl rfl
  | ncoStep => exact (ncoStep_wc h).imp_right fun hwc => .inl ⟨hwc, .inl rfl⟩
  | decStep => exact (decStep_wc h).imp_right fun hwc => .inr ⟨hwc, .inl rfl⟩
  | _ => exact .inl (microOp_wc h ⟨_, rfl⟩ nofun nofun)

/-- Settles O51, by the three cases of `Impl.exec_wc`. -/
theorem waveCounterMovesByOneOrToZero : Obligations.WaveCounterMovesByOneOrToZero := by
  intro i s t h
  rw [exec_eq] at h
  obtain hwc | ⟨hwc, hi⟩ | ⟨hwc, hi⟩ := Impl.exec_wc h
  · exact ⟨.inl hwc, fun hlt => by omega, fun hlt => by omega⟩
  · exact ⟨.inr (.inl hwc), fun hlt => by omega, fun _ => hi⟩
  · exact ⟨.inr (.inr hwc), fun _ => ⟨hwc, hi⟩, fun hlt => by omega⟩

/-! ### The sticky flags and the record -/

/-- From `s` to `t` no sticky flag is cleared, and a record made on the way has set the flag of its fault (R41, R42,
R239). -/
structure State.FlagsFaults (s t : State α) : Prop where
  numFault : s.numFault = true → t.numFault = true
  wcOvf : s.wcOvf = true → t.wcOvf = true
  recorded : ∀ f, t.recorded = some f → s.recorded = some f ∨ (f = .numericFault ∧ t.numFault = true) ∨
    (f = .counterOverflow ∧ t.wcOvf = true)

theorem State.FlagsFaults.trans {s t u : State α} (h : s.FlagsFaults t) (k : t.FlagsFaults u) : s.FlagsFaults u where
  numFault hs := k.numFault (h.numFault hs)
  wcOvf hs := k.wcOvf (h.wcOvf hs)
  recorded f hu := by
    obtain ht | hn | hw := k.recorded f hu
    · obtain hs | ⟨hf, hn⟩ | ⟨hf, hw⟩ := h.recorded f ht
      · exact .inl hs
      · exact .inr (.inl ⟨hf, k.numFault hn⟩)
      · exact .inr (.inr ⟨hf, k.wcOvf hw⟩)
    · exact .inr (.inl hn)
    · exact .inr (.inr hw)

/-- An update that leaves the two flags and the record. -/
theorem State.FlagsFaults.of_eq {s t : State α} (hn : t.numFault = s.numFault) (hw : t.wcOvf = s.wcOvf)
    (hr : t.recorded = s.recorded) : s.FlagsFaults t where
  numFault hs := hn.trans hs
  wcOvf hs := hw.trans hs
  recorded _ ht := .inl (hr ▸ ht)

/-- A command that begins without a record (R239). -/
theorem State.FlagsFaults.of_recorded_none {s t : State α} (hn : t.numFault = s.numFault) (hw : t.wcOvf = s.wcOvf)
    (hr : t.recorded = none) : s.FlagsFaults t where
  numFault hs := hn.trans hs
  wcOvf hs := hw.trans hs
  recorded f ht := by simp [hr] at ht

theorem State.FlagsFaults.noteIf {s t : State α} {b : Bool} (h : s.FlagsFaults t) : s.FlagsFaults (t.noteIf b) :=
  h.trans
    { numFault := fun ht => by simp [ht]
      wcOvf := id
      recorded := fun f hf => by
        obtain ht | ⟨-, hb, hf⟩ := firstFault_eq_some.1 hf
        · exact .inl ht
        · exact .inr (.inl ⟨hf.symm, by simp [hb]⟩) }

theorem State.FlagsFaults.note {s t : State α} {n : Num α} {ds vs : List α} (h : s.FlagsFaults t) :
    s.FlagsFaults (t.note n ds vs) := h.noteIf

theorem State.FlagsFaults.noteOverflow {s t : State α} {b : Bool} (h : s.FlagsFaults t) :
    s.FlagsFaults (t.noteOverflow b) :=
  h.trans
    { numFault := id
      wcOvf := fun ht => by simp [ht]
      recorded := fun f hf => by
        obtain ht | ⟨-, hb, hf⟩ := firstFault_eq_some.1 hf
        · exact .inl ht
        · exact .inr (.inr ⟨hf.symm, by simp [hb]⟩) }

theorem State.FlagsFaults.advance {s t : State α} (h : s.FlagsFaults t) : s.FlagsFaults t.advance :=
  h.trans (.of_eq rfl rfl rfl)

theorem State.FlagsFaults.emit {s t : State α} {es : List (Event α)} (h : s.FlagsFaults t) : s.FlagsFaults (t.emit es) :=
  h.trans (.of_eq rfl rfl rfl)

/-- No micro-operation clears a sticky flag, and one that records a fault has set its flag. -/
theorem Impl.microOp_flagsFaults [DecidableEq α] {p : Impl α} {i : Instr} {s t : State α}
    (hi : ∃ ph, encode i = .phase ph) (h : p.exec i s = .next t) : s.FlagsFaults t := by
  rcases microOp_cases hi with rfl | rfl | rfl | rfl | rfl | rfl | rfl | rfl | rfl
  · cases h; exact .noteIf <| .of_eq rfl rfl rfl
  · cases h; exact .advance <| .note <| .noteOverflow <| .note <| .of_eq rfl rfl rfl
  · cases h; exact .advance <| .note <| .of_eq rfl rfl rfl
  · obtain ⟨-, rfl⟩ := Impl.firI_eq_next.1 h
    exact .advance <| .noteIf <| .of_eq rfl rfl rfl
  · obtain ⟨-, rfl⟩ := Impl.firQ_eq_next.1 h
    exact .advance <| .noteIf <| .of_eq rfl rfl rfl
  · obtain ⟨z, r, -, -, rfl⟩ := Impl.loopUpdate_eq_next.1 h
    exact .advance <| .note <| .of_eq rfl rfl rfl
  · cases h; exact .advance <| .emit <| .note <| .of_eq rfl rfl rfl
  · obtain h' | ⟨g, -, -, -, h'⟩ := p.decStep_cases s <;> (cases h.symm.trans h'; exact .of_eq rfl rfl rfl)
  · cases h; exact .of_eq rfl rfl rfl

/-- A whole TICK clears no sticky flag, and one that records a fault has set its flag. -/
theorem Impl.runTick_flagsFaults [DecidableEq α] {p : Impl α} {s t : State α} (h : p.runTick s = .next t) :
    s.FlagsFaults t :=
  runTick_induction (P := fun _ u => s.FlagsFaults u) (.of_eq rfl rfl rfl)
    (fun _ ph _ _ hi h hu => hu.trans (microOp_flagsFaults ⟨ph, hi⟩ h)) h

/-- A TICK begins without a record, so the one it ends with has set its flag. -/
theorem Impl.tick_flagsFaults [DecidableEq α] {p : Impl α} {data : BitVec 32} {s t : State α}
    (h : p.tick data s = .next t) : s.FlagsFaults t := by
  obtain ⟨-, hrun⟩ | ⟨-, rfl⟩ := Impl.tick_eq_next.1 h
  · exact .trans (.of_recorded_none (t := s.beginTick data) rfl rfl rfl) (runTick_flagsFaults hrun)
  · exact .of_eq rfl rfl rfl

/-- Every operation but RESET keeps a sticky flag that is set (R41, R42). -/
theorem Impl.exec_sticky [DecidableEq α] {p : Impl α} {i : Instr} {s t : State α} (h : p.exec i s = .next t)
    (hi : ¬∃ idx data, i = .reset idx data) :
    (s.numFault = true → t.numFault = true) ∧ (s.wcOvf = true → t.wcOvf = true) := by
  have of_flagsFaults (k : s.FlagsFaults t) := And.intro k.numFault k.wcOvf
  cases i with
  | reset idx data => exact absurd ⟨idx, data, rfl⟩ hi
  | cfgw => obtain ⟨-, rfl⟩ | ⟨-, rfl⟩ := Impl.cfgw_eq_next.1 h <;> exact ⟨id, id⟩
  | csrr => cases h; exact ⟨id, id⟩
  | design =>
    obtain ⟨-, rfl⟩ | ⟨-, -, rfl⟩ | ⟨-, -, -, rfl⟩ := Impl.design_eq_next.1 h
    · exact ⟨id, id⟩
    · exact ⟨fun hs => by simp [hs], id⟩
    · exact ⟨fun hs => by simp [hs], id⟩
  | tick => exact of_flagsFaults (tick_flagsFaults h)
  | eos => obtain ⟨-, rfl⟩ | ⟨-, rfl⟩ := eos_eq_next.1 h <;> exact ⟨id, id⟩
  | serr => obtain ⟨-, rfl⟩ | ⟨-, rfl⟩ := Impl.serr_eq_next.1 h <;> exact ⟨id, id⟩
  | _ => exact of_flagsFaults (microOp_flagsFaults ⟨_, rfl⟩ h)

/-- Settles O50: of the cases of a step only the pin and RESET clear a flag, by `Impl.exec_sticky`, and both are the
reset. -/
theorem faultFlagsAreSticky : Obligations.FaultFlagsAreSticky := by
  intro s t hstep hcleared
  have not_sticky {P : Prop} (h : (s.numFault = true → t.numFault = true) ∧ (s.wcOvf = true → t.wcOvf = true)) : P := by
    obtain ⟨hs, ht⟩ | ⟨hs, ht⟩ := hcleared
    · simp [h.1 hs] at ht
    · simp [h.2 hs] at ht
  obtain ⟨-, rfl⟩ | ⟨-, -, -, rfl⟩ | ⟨w, rest, -, -, -, ⟨e, -, rfl⟩ | ⟨i, -, hrun⟩⟩ | ⟨i, -, -, hi, hrun⟩ :=
    step_cases hstep
  · exact ⟨rfl, rfl⟩
  · exact not_sticky ⟨id, id⟩
  · exact not_sticky ⟨id, id⟩
  · rw [exec_eq] at hrun
    by_cases hreset : ∃ idx data, i = .reset idx data
    · obtain ⟨idx, data, rfl⟩ := hreset
      cases hrun
      exact ⟨rfl, rfl⟩
    · exact not_sticky (Impl.exec_sticky (s := s.accept rest) hrun hreset)
  · rw [exec_eq] at hrun
    exact not_sticky (Impl.exec_sticky hrun (by rintro ⟨idx, data, rfl⟩; simpa using decodePhase_ok hi))

end Sys2Proof.Machine
end

section
/-! PROOFS. The invariant of runs (R24, R30, R31, R39, R46, R60): it holds at reset, and micro-operations, host commands
and steps keep it. -/

namespace Sys2Proof.Machine

/-! ### The parts of the invariant -/

/-- A write within the range of a memory keeps the range. -/
theorem Memory.below_put {m : Memory} {n a : Nat} (hm : m.below n) (ha : a < n) (z v : V) : Memory.below (m.put z a v) n :=
  fun c hc => (mem_put hc).elim (fun h => h ▸ ha) (hm c)

/-- The memories name no element outside `0 .. N-1`, before DESIGN because they hold zeros. -/
theorem State.MemoriesOk.below {s : State} (h : s.MemoriesOk) :
    s.hi.below s.cfg.nTaps.toNat ∧ s.hq.below s.cfg.nTaps.toNat ∧ s.coef.below s.cfg.nTaps.toNat := by
  obtain ⟨-, -, -, hzero, hbelow⟩ := h
  by_cases hu : s.life = .unconfigured
  · obtain ⟨hi, hq, hcoef⟩ := hzero hu
    rw [hi, hq, hcoef]
    exact ⟨nofun, nofun, nofun⟩
  · exact hbelow hu

/-- The mark a fault leaves in the state: its sticky flag (R41, R42), or `LIFE` and `CAUSE` (R240). -/
def State.Marked (s : State) : FaultKind → Prop
  | .numericFault => s.numFault = true
  | .counterOverflow => s.wcOvf = true
  | .configurationError => s.life = .halted ∧ s.cause = .configurationError
  | .streamError => s.life = .halted ∧ s.cause = .streamError

theorem State.recordOk_iff {s : State} :
    s.RecordOk ↔ (s.life = .unconfigured → s.recorded = none) ∧ ∀ f, s.recorded = some f → s.Marked f := by
  constructor
  · rintro ⟨hunc, hnum, hwc, hconf, hstream⟩
    refine ⟨hunc, fun f hf => ?_⟩
    cases f with
    | numericFault => exact hnum hf
    | counterOverflow => exact hwc hf
    | configurationError => exact hconf hf
    | streamError => exact hstream hf
  · rintro ⟨hunc, hmark⟩
    exact ⟨hunc, hmark _, hmark _, hmark _, hmark _⟩

/-- Outside UNCONFIGURED the record stays right where flags are kept and a new record has set its flag. -/
theorem State.RecordOk.of_flagsFaults {s t : State} (hs : s.RecordOk) (h : s.FlagsFaults t)
    (ht : t.life ≠ .unconfigured) (hold : ∀ f, s.recorded = some f → s.Marked f → t.Marked f) : t.RecordOk := by
  refine State.recordOk_iff.2 ⟨fun hu => absurd hu ht, fun f hf => ?_⟩
  obtain hf | ⟨rfl, hn⟩ | ⟨rfl, hw⟩ := h.recorded f hf
  · exact hold f hf ((State.recordOk_iff.1 hs).2 f hf)
  · exact hn
  · exact hw

/-- Where lifecycle and cause stay and no flag is cleared, every mark stays. -/
theorem State.Marked.of_flagsFaults {s t : State} {f : FaultKind} (hs : s.Marked f) (h : s.FlagsFaults t)
    (hlife : t.life = s.life) (hcause : t.cause = s.cause) : t.Marked f := by
  cases f with
  | numericFault => exact h.numFault hs
  | counterOverflow => exact h.wcOvf hs
  | configurationError => exact ⟨hlife.trans hs.1, hcause.trans hs.2⟩
  | streamError => exact ⟨hlife.trans hs.1, hcause.trans hs.2⟩

/-! ### Reset -/

/-- Settles O45: every part speaks of the fields of the reset state. -/
theorem invariantHoldsAtReset : Obligations.InvariantHoldsAtReset := by
  refine ⟨⟨?_, ?_, ?_, fun _ => ⟨rfl, rfl, rfl⟩, fun h => absurd rfl h⟩, ⟨fun _ => ⟨rfl, rfl⟩, nofun⟩,
    ⟨nofun, nofun, fun _ => rfl⟩, nofun, ⟨fun _ => ⟨rfl, rfl⟩, nofun⟩,
    fun _ => ⟨rfl, rfl, rfl, rfl, rfl, rfl, rfl, rfl, rfl⟩, ⟨fun _ => rfl, nofun, nofun, nofun, nofun⟩, Nat.zero_le _⟩
  all_goals exact ⟨.nil, nofun⟩

/-- RESET leaves a state of the invariant, whatever stands on the ports. -/
theorem State.restart_inv (s : State) : (s.restart F32.ieee32).Inv := invariantHoldsAtReset

/-! ### Micro-operations -/

section MicroOp

variable {i : Instr} {s t : State}

/-- The code of format U of an operation is the phase that selects it (R84). -/
theorem encode_eq_phase_iff {ph : Phase} : encode i = .phase ph ↔ decodePhase ph = .ok i := by
  constructor
  · intro hi
    rcases microOp_cases ⟨ph, hi⟩ with rfl | rfl | rfl | rfl | rfl | rfl | rfl | rfl | rfl <;> (cases hi; rfl)
  · intro hi
    obtain ⟨rfl, rfl⟩ | ⟨rfl, rfl⟩ | ⟨rfl, rfl⟩ | ⟨rfl, rfl⟩ | ⟨rfl, rfl⟩ | ⟨rfl, rfl⟩ | ⟨rfl, rfl⟩ | ⟨rfl, rfl⟩ |
      ⟨rfl, rfl⟩ := decodePhase_ok hi <;> rfl

/-- No two micro-operations share a phase. -/
theorem eq_of_encode_eq_phase {j : Instr} {ph : Phase} (hi : encode i = .phase ph) (hj : encode j = .phase ph) :
    i = j :=
  Except.ok.inj ((encode_eq_phase_iff.1 hi).symm.trans (encode_eq_phase_iff.1 hj))

/-- The phases below that of TLM.EMIT are those of the other micro-operations (R84). -/
theorem encode_phase_lt {ph : Phase} (hi : encode i = .phase ph) (hne : i ≠ .tlmEmit) : ph.toNat < 8 := by
  obtain ⟨rfl, -⟩ | ⟨rfl, -⟩ | ⟨rfl, -⟩ | ⟨rfl, -⟩ | ⟨rfl, -⟩ | ⟨rfl, -⟩ | ⟨rfl, -⟩ | ⟨rfl, -⟩ | ⟨-, rfl⟩ :=
    decodePhase_ok (encode_eq_phase_iff.1 hi)
  case inr.inr.inr.inr.inr.inr.inr.inr => exact absurd rfl hne
  all_goals decide

/-- A micro-operation but TLM.EMIT moves the sequencer to the next phase (R24). -/
theorem Impl.microOp_ph (hi : encode i = .phase s.ph) (hne : i ≠ .tlmEmit) (h : Impl.ieee32.exec i s = .next t) :
    t.ph = s.ph + 1 := by
  rcases microOp_cases ⟨_, hi⟩ with rfl | rfl | rfl | rfl | rfl | rfl | rfl | rfl | rfl
  · cases h
    injection hi with hph
    simp [← hph]
  · cases h; rfl
  · cases h; rfl
  · obtain ⟨-, rfl⟩ := Impl.firI_eq_next.1 h; rfl
  · obtain ⟨-, rfl⟩ := Impl.firQ_eq_next.1 h; rfl
  · obtain ⟨z, r, -, -, rfl⟩ := Impl.loopUpdate_eq_next.1 h; rfl
  · cases h; rfl
  · obtain h' | ⟨g, -, -, -, h'⟩ := Impl.ieee32.decStep_cases s <;> (cases h.symm.trans h'; rfl)
  · exact absurd rfl hne

/-- TLM.EMIT ends the tick: ready, phase 0, no value of the tick left (R216). -/
theorem Impl.tlmEmit_endsTick (h : Impl.ieee32.tlmEmit s = .next t) :
    t.cmdReady = true ∧ t.ph = 0 ∧ t.loc = TickLocal.none := by
  cases h; exact ⟨rfl, rfl, rfl⟩

/-- A micro-operation writes to the in-phase history in range or not at all. -/
theorem Impl.microOp_hi (hi : ∃ ph, encode i = .phase ph) (h : Impl.ieee32.exec i s = .next t) :
    t.hi = s.hi ∨ (s.curI < s.cfg.nTaps.toNat ∧ t.hi = s.hi.write s.curI s.loc.mI) := by
  by_cases hne : i = .firI
  · subst hne
    obtain ⟨hlt, rfl⟩ := Impl.firI_eq_next.1 h
    exact .inr ⟨hlt, rfl⟩
  · exact .inl ((microOp_leavesOthers hi h).historyI hne).1

/-- A micro-operation writes to the quadrature history in range or not at all. -/
theorem Impl.microOp_hq (hi : ∃ ph, encode i = .phase ph) (h : Impl.ieee32.exec i s = .next t) :
    t.hq = s.hq ∨ (s.curQ < s.cfg.nTaps.toNat ∧ t.hq = s.hq.write s.curQ s.loc.mQ) := by
  by_cases hne : i = .firQ
  · subst hne
    obtain ⟨hlt, rfl⟩ := Impl.firQ_eq_next.1 h
    exact .inr ⟨hlt, rfl⟩
  · exact .inl ((microOp_leavesOthers hi h).historyQ hne).1

/-- A memory that is as before or written in range is canonical and in range as before. -/
theorem Memory.wf_below_of_write {m m' : Memory} {a n : Nat} {v : V} (hm : m.wf ∧ m.below n)
    (h : m' = m ∨ (a < n ∧ m' = m.write a v)) : m'.wf ∧ m'.below n := by
  obtain rfl | ⟨ha, rfl⟩ := h
  · exact hm
  · exact ⟨Memory.wf_write hm.1 a v, Memory.below_put hm.2 ha 0 v⟩

theorem Impl.microOp_memoriesOk (hs : s.MemoriesOk) (hlife : s.life = .running) (hi : ∃ ph, encode i = .phase ph)
    (h : Impl.ieee32.exec i s = .next t) : t.MemoriesOk := by
  have hk := microOp_keepsSetup hi h
  obtain ⟨hbi, hbq, hbc⟩ := hs.below
  obtain ⟨hwi, hwq, hwc, -, -⟩ := hs
  obtain ⟨hwi', hbi'⟩ := Memory.wf_below_of_write ⟨hwi, hbi⟩ (microOp_hi hi h)
  obtain ⟨hwq', hbq'⟩ := Memory.wf_below_of_write ⟨hwq, hbq⟩ (microOp_hq hi h)
  refine ⟨hwi', hwq', by rwa [hk.coef], fun hu => ?_, fun _ => ?_⟩
  · rw [hk.life, hlife] at hu
    cases hu
  · rw [hk.cfg, hk.coef]
    exact ⟨hbi', hbq', hbc⟩

theorem Impl.microOp_sequencerOk (hlife : s.life = .running) (hready : s.cmdReady = false)
    (hi : encode i = .phase s.ph) (h : Impl.ieee32.exec i s = .next t) : t.SequencerOk := by
  by_cases hne : i = .tlmEmit
  · subst hne
    obtain ⟨hr, hph, hloc⟩ := tlmEmit_endsTick h
    exact ⟨fun _ => ⟨hph, hloc⟩, fun hr' => by simp [hr] at hr'⟩
  · have hr : t.cmdReady = false := ((microOp_leavesOthers ⟨_, hi⟩ h).telemetry hne).2.trans hready
    refine ⟨fun hr' => by simp [hr] at hr', fun _ => ⟨(microOp_keepsSetup ⟨_, hi⟩ h).life.trans hlife, ?_⟩⟩
    have hlt := encode_phase_lt hi hne
    rw [microOp_ph hi hne h]
    bv_omega

/-- The cursors stay in range. They are equal but between FIR.I, which advances one of them, and FIR.Q, which advances the
other (R30). -/
theorem Impl.microOp_cursorsOk (hs : s.CursorsOk) (hlife : s.life = .running) (hi : encode i = .phase s.ph)
    (h : Impl.ieee32.exec i s = .next t) : t.CursorsOk := by
  have hk := microOp_keepsSetup ⟨_, hi⟩ h
  have hl := microOp_leavesOthers ⟨_, hi⟩ h
  obtain ⟨hrange, hphase4, hequal⟩ := hs
  obtain ⟨hI, hQ⟩ := hrange hlife
  by_cases hfirI : i = .firI
  · subst hfirI
    obtain ⟨-, rfl⟩ := Impl.firI_eq_next.1 h
    injection hi with hph
    have heq := hequal (by simp [← hph])
    exact ⟨fun _ => ⟨Nat.mod_lt _ (by omega), hQ⟩, fun _ => by simp [State.afterFirI, fir, heq],
      fun h4 => absurd (by simp [State.afterFirI, ← hph]) h4⟩
  by_cases hfirQ : i = .firQ
  · subst hfirQ
    obtain ⟨-, rfl⟩ := Impl.firQ_eq_next.1 h
    injection hi with hph
    have hnext := hphase4 hph.symm
    exact ⟨fun _ => ⟨hI, Nat.mod_lt _ (by omega)⟩, fun h4 => by simp [State.afterFirQ, ← hph] at h4, fun _ => hnext⟩
  · have hs4 : s.ph ≠ 4 := fun h4 => hfirQ (eq_of_encode_eq_phase (h4 ▸ hi) rfl)
    have ht4 : t.ph ≠ 4 := by
      by_cases hne : i = .tlmEmit
      · subst hne
        rw [(tlmEmit_endsTick h).2.1]
        decide
      · rw [microOp_ph hi hne h]
        intro h4
        have h3 : s.ph = 3 := by bv_omega
        exact hfirI (eq_of_encode_eq_phase (h3 ▸ hi) rfl)
    rw [State.CursorsOk, (hl.historyI hfirI).2, (hl.historyQ hfirQ).2, hk.cfg]
    exact ⟨fun _ => ⟨hI, hQ⟩, fun h4 => absurd h4 ht4, fun _ => hequal hs4⟩

theorem Impl.microOp_wc_le (hs : s.osc.wc ≤ Config.wcMax) (hi : ∃ ph, encode i = .phase ph)
    (h : Impl.ieee32.exec i s = .next t) : t.osc.wc ≤ Config.wcMax := by
  by_cases hnco : i = .ncoStep
  · subst hnco
    cases h
    exact wcNext_le hs
  by_cases hdec : i = .decStep
  · subst hdec
    obtain hwc | hwc := decStep_wc h
    · exact hwc ▸ hs
    · exact hwc ▸ Nat.zero_le _
  · exact microOp_wc h hi hnco hdec ▸ hs

/-- The micro-operation that the phase of a tick in progress selects keeps the invariant. -/
theorem Impl.microOp_inv (hs : s.Inv) (hready : s.cmdReady = false) (hi : encode i = .phase s.ph)
    (h : Impl.ieee32.exec i s = .next t) : t.Inv := by
  obtain ⟨hmem, hseq, hcur, hdes, hexit, -, hrec, hwc⟩ := hs
  obtain ⟨hlife, -⟩ := hseq.2 hready
  have hk := microOp_keepsSetup ⟨_, hi⟩ h
  have hf := microOp_flagsFaults ⟨_, hi⟩ h
  have hlife' : t.life ≠ .unconfigured := by simp [hk.life, hlife]
  refine ⟨microOp_memoriesOk hmem hlife ⟨_, hi⟩ h, microOp_sequencerOk hlife hready hi h,
    microOp_cursorsOk hcur hlife hi h, ?_, ?_, fun hu => absurd hu hlife',
    hrec.of_flagsFaults hf hlife' fun f _ hm => hm.of_flagsFaults hf hk.life hk.cause,
    microOp_wc_le hwc ⟨_, hi⟩ h⟩
  · rw [State.DesignOk, hk.life, hk.cfg, hk.drv, hk.coef]
    exact hdes
  · rw [State.ExitOk, hk.life, hk.cause, hk.exitCode]
    exact hexit

end MicroOp

/-! ### Host commands -/

section Command

variable {s t : State}

theorem State.Inv.beginTick (hs : s.Inv) (hready : s.cmdReady = true) (hlife : s.life = .running)
    (data : BitVec 32) : (s.beginTick data).Inv := by
  obtain ⟨hmem, hseq, hcur, hdes, hexit, hunc, -, hwc⟩ := hs
  have hequal : s.curI = s.curQ := hcur.2.2 (by simp [(hseq.1 hready).1])
  exact ⟨hmem, ⟨nofun, fun _ => ⟨hlife, Nat.zero_le _⟩⟩, ⟨hcur.1, nofun, fun _ => hequal⟩, hdes, hexit, hunc,
    ⟨fun _ => rfl, nofun, nofun, nofun, nofun⟩, hwc⟩

/-- A TICK keeps the invariant, since each of its micro-operations does at its phase. -/
theorem Impl.tick_inv {data : BitVec 32} (hs : s.Inv) (hready : s.cmdReady = true)
    (h : Impl.ieee32.tick data s = .next t) : t.Inv := by
  obtain ⟨hlife, hrun⟩ | ⟨-, rfl⟩ := Impl.tick_eq_next.1 h
  · refine (runTick_induction (P := fun ph u => u.Inv ∧ (ph ≠ 9 → u.cmdReady = false ∧ u.ph = ph))
      ⟨hs.beginTick hready hlife data, fun _ => ⟨rfl, rfl⟩⟩ (fun i ph u v hi hv hu => ?_) hrun).1
    obtain ⟨hinv, hphase⟩ := hu
    obtain ⟨hbusy, rfl⟩ := hphase (by rintro rfl; simpa using decodePhase_ok (encode_eq_phase_iff.1 hi))
    refine ⟨microOp_inv hinv hbusy hi hv, fun h9 => ?_⟩
    have hne : i ≠ .tlmEmit := by
      rintro rfl
      injection hi with hph
      exact h9 (by simp [← hph])
    exact ⟨((microOp_leavesOthers ⟨_, hi⟩ hv).telemetry hne).2.trans hbusy, microOp_ph hi hne hv⟩
  · exact hs

/-- What enters HALTED from between commands with the exit status of its cause keeps the invariant. -/
theorem State.Inv.halt (hs : s.Inv) (hready : s.cmdReady = true) {drv : Derived V} {cause : Cause}
    {exitCode : BitVec 8} {numFault : Bool} {recorded : Option FaultKind} {ph : Phase} (hph : ph = 0)
    (hexit : exitCode = if cause = .none then 0 else Config.exitFailCode)
    (hmark : ∀ f, recorded = some f → ({ s with life := .halted, cause := cause, numFault := numFault } : State).Marked f) :
    ({ s with
      drv := drv, life := .halted, cause := cause, exitCode := exitCode, numFault := numFault, recorded := recorded
      ph := ph } : State).Inv := by
  subst hph
  obtain ⟨hmem, hseq, hcur, -, -, -, -, hwc⟩ := hs
  obtain ⟨hph, hloc⟩ := hseq.1 hready
  have hequal : s.curI = s.curQ := hcur.2.2 (by simp [hph])
  have hbelow := hmem.below
  obtain ⟨hwi, hwq, hwcoef, -, -⟩ := hmem
  refine ⟨⟨hwi, hwq, hwcoef, nofun, fun _ => hbelow⟩, ⟨fun _ => ⟨rfl, hloc⟩, fun hr => ?_⟩,
    ⟨nofun, nofun, fun _ => hequal⟩, nofun, ⟨fun hne => absurd rfl hne, fun _ => hexit⟩, nofun,
    State.recordOk_iff.2 ⟨nofun, fun f hf => ?_⟩, hwc⟩
  · simp [hready] at hr
  · have := hmark f hf
    cases f <;> exact this

theorem State.Inv.setCfg (hs : s.Inv) (hready : s.cmdReady = true) (hlife : s.life = .unconfigured) (c : CfgRegs V) :
    (s.setCfg c).Inv := by
  obtain ⟨⟨hwi, hwq, hwcoef, hzero, -⟩, hseq, hcur, -, hexit, hunc, hrec, hwc⟩ := hs
  have hph : s.ph ≠ 4 := by simp [(hseq.1 hready).1]
  have hidle : s.life ≠ .running := by simp [hlife]
  exact ⟨⟨hwi, hwq, hwcoef, hzero, fun hu => absurd hlife hu⟩, hseq,
    ⟨fun hr => absurd hr hidle, fun h4 => absurd h4 hph, hcur.2.2⟩, fun hr => absurd hr hidle, hexit, hunc, hrec, hwc⟩

/-- A configuration DESIGN runs on has a legal tap count and a legal `MODE` (R266). -/
theorem CfgRegs.legal_of_runnable {α : Type} {c : CfgRegs α} {p : Impl α} (h : c.runnable p = true) :
    tapsLegal p.nMax c.nTaps.toNat = true ∧ modeLegal c.mode = true := by
  simp only [CfgRegs.runnable, Bool.and_eq_true] at h
  obtain ⟨⟨⟨⟨⟨⟨⟨htaps, -⟩, -⟩, -⟩, -⟩, -⟩, -⟩, hmode⟩ := h
  exact ⟨htaps, hmode⟩

theorem pos_of_tapsLegal {nMax : Option Nat} {n : Nat} (h : tapsLegal nMax n = true) : 0 < n := by
  simp only [tapsLegal, Bool.and_eq_true, decide_eq_true_eq] at h
  omega

/-- DESIGN on a configuration it runs on leaves what the invariant asks of RUNNING (R47, R116). -/
theorem State.Inv.launch (hs : s.Inv) (hready : s.cmdReady = true) (hlife : s.life = .unconfigured)
    (hrun : s.cfg.runnable Impl.ieee32 = true) (ds vs : List V) :
    ((s.clearRecord.launch F32.ieee32).note F32.ieee32 ds vs).Inv := by
  obtain ⟨⟨-, -, -, hzero, -⟩, hseq, -, -, hexit, -, hrec, -⟩ := hs
  obtain ⟨hi, hq, hcoef⟩ := hzero hlife
  obtain ⟨hph, hloc⟩ := hseq.1 hready
  obtain ⟨htaps, hmode⟩ := CfgRegs.legal_of_runnable hrun
  have hpos := pos_of_tapsLegal htaps
  have hempty : Memory.wf [] := ⟨.nil, nofun⟩
  refine ⟨⟨?_, ?_, ?_, nofun, fun _ => ⟨?_, ?_, fun c hc => ?_⟩⟩, ⟨fun _ => ⟨hph, hloc⟩, fun hr => ?_⟩,
    ⟨fun _ => ⟨hpos, hpos⟩, fun h4 => ?_, fun _ => rfl⟩, fun _ => ⟨hmode, htaps, rfl, ?_⟩,
    ⟨fun _ => hexit.1 (by simp [hlife]), nofun⟩, nofun,
    hrec.of_flagsFaults (.note <| .of_recorded_none rfl rfl rfl) nofun fun f hf => ?_, Nat.zero_le _⟩
  · simpa [hi] using hempty
  · simpa [hq] using hempty
  · simpa [hcoef] using Memory.wf_writeCoefs hempty _ _ _
  · simp [hi]
  · simp [hq]
  · simp only [note_coef, launch_coef, clearRecord_cfg, clearRecord_coef, hcoef] at hc
    obtain hlt | hmem := Memory.mem_writeCoefs hc
    · exact hlt
    · cases hmem
  · simp [hready] at hr
  · simp [hph] at h4
  · simp [hcoef]
  · simp [hrec.1 hlife] at hf

/-- DESIGN keeps the invariant: ignored, halted by a ConfigurationError (R231), or launched. -/
theorem Impl.design_inv (hs : s.Inv) (hready : s.cmdReady = true) (h : Impl.ieee32.design s = .next t) : t.Inv := by
  obtain ⟨-, rfl⟩ | ⟨-, -, rfl⟩ | ⟨hlife, -, hrun, rfl⟩ := Impl.design_eq_next.1 h
  · exact hs
  · refine hs.halt hready rfl rfl fun f hf => ?_
    cases hraised : raisesNumeric F32.ieee32 [s.cfg.sampleRate] (s.cfg.fcMade F32.ieee32) with
    | false =>
      obtain rfl : FaultKind.configurationError = f := by simpa [hraised, Cause.fault] using hf
      exact ⟨rfl, rfl⟩
    | true =>
      obtain rfl : FaultKind.numericFault = f := by simpa [hraised] using hf
      simp [State.Marked, hraised]
  · exact hs.launch hready hlife hrun _ _

/-- EOS keeps the invariant: the record of a RUNNING block is that of a sticky flag, which stays (R225). -/
theorem State.Inv.finish (hs : s.Inv) (hready : s.cmdReady = true) (hlife : s.life = .running) : s.finish.Inv := by
  have ⟨_, hseq, _, _, _, _, hrec, _⟩ := hs
  have hnot : s.life ≠ .halted := by simp [hlife]
  refine hs.halt hready (hseq.1 hready).1 rfl fun f hf => ?_
  have hmark := (State.recordOk_iff.1 hrec).2 f hf
  cases f with
  | numericFault => exact hmark
  | counterOverflow => exact hmark
  | configurationError => exact absurd hmark.1 hnot
  | streamError => exact absurd hmark.1 hnot

/-- Every host command, taken between commands, keeps the invariant. -/
theorem Impl.command_inv {w : CommandWord} {i : Instr} (hs : s.Inv) (hready : s.cmdReady = true)
    (hi : decodeCommand w = .ok i) (h : Impl.ieee32.exec i s = .next t) : t.Inv := by
  obtain rfl | rfl | rfl | rfl | rfl | rfl | rfl := decodeCommand_ok hi
  · cases h; exact s.restart_inv
  · obtain ⟨hlife, rfl⟩ | ⟨-, rfl⟩ := Impl.cfgw_eq_next.1 h
    · exact hs.setCfg hready hlife _
    · exact hs
  · cases h; exact hs
  · exact design_inv hs hready h
  · exact tick_inv hs hready h
  · obtain ⟨hlife, rfl⟩ | ⟨-, rfl⟩ := eos_eq_next.1 h
    · exact hs.finish hready hlife
    · exact hs
  · obtain ⟨-, rfl⟩ | ⟨-, rfl⟩ := Impl.serr_eq_next.1 h
    · refine hs.halt hready rfl rfl fun f hf => ?_
      cases hf
      exact ⟨rfl, rfl⟩
    · exact hs

end Command

/-- Settles O46, by the cases of a step: the pin resets, a wait or a word ignored changes no register, a command is
`Impl.command_inv` and a micro-operation of a tick in progress `Impl.microOp_inv`. -/
theorem everyStepKeepsTheInvariant : Obligations.EveryStepKeepsTheInvariant := by
  intro s t hs hstep
  obtain ⟨-, rfl⟩ | ⟨-, -, -, rfl⟩ | ⟨w, rest, -, hready, -, ⟨e, -, rfl⟩ | ⟨i, hi, hrun⟩⟩ | ⟨i, -, hbusy, hi, hrun⟩ :=
    step_cases hstep
  · exact s.restart_inv
  · exact hs
  · exact hs
  · rw [exec_eq] at hrun
    exact Impl.command_inv (s := s.accept rest) hs hready hi hrun
  · rw [exec_eq] at hrun
    exact Impl.microOp_inv hs hbusy (encode_eq_phase_iff.2 hi) hrun

end Sys2Proof.Machine
end

section
/-! PROOFS. The register space (R35 to R43): what each number shows, what CFGW writes, the fields of STATUS. And the
step in a tick (R84). -/

namespace Sys2Proof.Machine

/-! ### The numbers -/

/-- Settles O53: `State.csr` at each number. -/
theorem csrNumbersNameTheirRegisters : Obligations.CsrNumbersNameTheirRegisters := by
  intro s
  refine ⟨?_, ?_, ?_⟩
  · exact ⟨rfl, rfl, rfl, rfl, rfl, rfl, rfl, rfl, rfl, rfl, rfl, rfl, rfl, rfl⟩
  · exact ⟨rfl, rfl, rfl, rfl, BitVec.toNat_ofNat ..⟩
  · exact ⟨rfl, rfl, rfl, rfl, rfl, rfl, rfl, rfl, rfl, rfl, rfl, rfl⟩

/-- CFGW while UNCONFIGURED writes the configuration register its number names (R220). -/
theorem exec_cfgw_of_unconfigured {s : State} (h : s.life = .unconfigured) (idx : CsrIndex) (data : BitVec 32) :
    exec (.cfgw idx data) s = .next (s.setCfg (s.cfg.write F32.ieee32 idx data)) :=
  (exec_eq _ s).trans (Impl.cfgw_eq_next.2 (.inl ⟨h, rfl⟩))

/-- Settles O54: `CfgRegs.write` at each number. -/
theorem cfgwNumbersNameTheirRegisters : Obligations.CfgwNumbersNameTheirRegisters := by
  intro s d h
  have hw := fun idx => exec_cfgw_of_unconfigured h idx d
  exact ⟨hw _, hw _, hw _, hw _, hw _, hw _, hw _, hw _, hw _, hw _, hw _, hw _, hw _, hw _⟩

/-- A number above 0x0D names no configuration register (R220). -/
theorem CfgRegs.write_of_gt {α : Type} (c : CfgRegs α) (n : Num α) {idx : CsrIndex} (data : Image)
    (h : 0x0D < idx.toNat) : c.write n idx data = c := by
  unfold CfgRegs.write
  split
  case h_15 => rfl
  all_goals omega

/-! ### The state views -/

/-- No register number is a window on the memories (R40). -/
theorem State.csrRead_setMemories (s : State) (k : CsrIndex) (hi hq coef : Memory) :
    ({ s with hi := hi, hq := hq, coef := coef } : State).csrRead k = s.csrRead k := rfl

/-- CFGW of a number above 0x0D changes nothing (R220). -/
theorem eq_of_exec_cfgw_of_gt {s t : State} {k : CsrIndex} {data : BitVec 32} (hk : 0x0D < k.toNat)
    (h : exec (.cfgw k data) s = .next t) : t = s := by
  rw [exec_eq] at h
  obtain ⟨-, rfl⟩ | ⟨-, rfl⟩ := Impl.cfgw_eq_next.1 h
  · rw [CfgRegs.write_of_gt _ _ _ hk]; rfl
  · rfl

/-- Settles O12: `State.csr` at the nine numbers, and `CfgRegs.write` above 0x0D. -/
theorem stateViewsShowTheState : Obligations.StateViewsShowTheState := by
  intro s
  refine ⟨rfl, rfl, rfl, BitVec.toNat_ofNat .., rfl, rfl, rfl, fun h => ?_, fun h => ?_, fun k data t hk _ h => ?_,
    fun _ _ => rfl, s.csrRead_setMemories⟩
  · exact (BitVec.toNat_ofNat ..).trans (Nat.mod_eq_of_lt h)
  · exact (BitVec.toNat_ofNat ..).trans (Nat.mod_eq_of_lt h)
  · exact eq_of_exec_cfgw_of_gt (by bv_omega) h

/-! ### The fields of STATUS -/

/-- The bits above the lower part of two joined words are those of the upper part. -/
theorem getLsbD_append_of_le {n m i : Nat} {x : BitVec n} {y : BitVec m} (h : m ≤ i) :
    (x ++ y).getLsbD i = x.getLsbD (i - m) := by
  rw [BitVec.getLsbD_append, if_neg (Nat.not_lt.2 h)]

theorem getLsbD_append_ofBool {n : Nat} (x : BitVec n) (b : Bool) : (x ++ BitVec.ofBool b).getLsbD 0 = b := by
  rw [BitVec.getLsbD_append, if_pos Nat.one_pos]
  simp

section Status

variable (s : State)

theorem State.status_life : s.status.extractLsb' 0 2 = s.life.image := BitVec.extractLsb'_append_eq_right

theorem State.status_locked : s.status.getLsbD 2 = s.dec.locked := by
  rw [State.status, getLsbD_append_of_le (by decide)]
  exact getLsbD_append_ofBool ..

theorem State.status_short : s.status.getLsbD 3 = s.dec.short := by
  rw [State.status, getLsbD_append_of_le (by decide), getLsbD_append_of_le (by decide)]
  exact getLsbD_append_ofBool ..

theorem State.status_prevSign : s.status.extractLsb' 4 2 = s.dec.prevSign.image := by
  rw [State.status, BitVec.extractLsb'_append_eq_of_le (by decide), BitVec.extractLsb'_append_eq_of_le (by decide),
    BitVec.extractLsb'_append_eq_of_le (by decide)]
  exact BitVec.extractLsb'_append_eq_right

theorem State.status_numFault : s.status.getLsbD 6 = s.numFault := by
  rw [State.status, getLsbD_append_of_le (by decide), getLsbD_append_of_le (by decide),
    getLsbD_append_of_le (by decide), getLsbD_append_of_le (by decide)]
  exact getLsbD_append_ofBool ..

theorem State.status_wcOvf : s.status.getLsbD 7 = s.wcOvf := by
  rw [State.status, getLsbD_append_of_le (by decide), getLsbD_append_of_le (by decide),
    getLsbD_append_of_le (by decide), getLsbD_append_of_le (by decide), getLsbD_append_of_le (by decide)]
  exact getLsbD_append_ofBool ..

theorem State.status_reserved : s.status.extractLsb' 8 24 = 0 := by
  rw [State.status, BitVec.extractLsb'_append_eq_of_le (by decide), BitVec.extractLsb'_append_eq_of_le (by decide),
    BitVec.extractLsb'_append_eq_of_le (by decide), BitVec.extractLsb'_append_eq_of_le (by decide),
    BitVec.extractLsb'_append_eq_of_le (by decide)]
  exact BitVec.extractLsb'_append_eq_left

end Status

/-- Settles O13: the fields one by one, each sign and lifecycle state by its image. -/
theorem statusFieldsAreWhereTheyStand : Obligations.StatusFieldsAreWhereTheyStand := by
  intro s
  refine ⟨s.status_life.trans ?_, s.status_locked, s.status_short, (congrArg BitVec.toInt s.status_prevSign).trans ?_,
    s.status_numFault, s.status_wcOvf, s.status_reserved, ?_, ?_⟩
  · cases s.life <;> rfl
  · cases s.dec.prevSign <;> rfl
  · show s.cause.image = _
    cases s.cause <;> rfl
  · exact BitVec.toNat_setWidth_of_le (b := s.exitCode) (by decide : 8 ≤ 32)

/-! ### The step in a tick -/

/-- Settles O6: the branches of `stepOnce` and `sequencerStep` that the hypotheses select. -/
theorem stepRunsSequencedMicroOp : Obligations.StepRunsSequencedMicroOp := by
  intro s i hrst hready hph
  rw [step, stepOnce, if_neg (by simp [hrst]), if_neg (by simp [hready]), sequencerStep, hph]

end Sys2Proof.Machine
end

section
/-! PROOFS. The fields of MODE that LOOP.UPDATE reads (R37), and the order of the two filters (R30, R207). -/

namespace Sys2Proof.Machine

/-! ### The reserved values of MODE -/

/-- `DISC_SIGN_ZERO` has one reserved value (R37). -/
theorem discSignZero_eq_none_iff (m : Image) : discSignZero m = none ↔ m.extractLsb' 1 2 = 3 := by
  unfold discSignZero
  generalize m.extractLsb' 1 2 = f
  revert f
  decide

/-- The selectors of `MODE` for which the loop filter has no formula (R37, R155, R158). -/
theorem loopMode_eq_none_iff (m : Image) :
    loopMode m = none ↔ m.getLsbD 5 = true ∨ m.extractLsb' 6 2 ≠ 0 ∨ m.extractLsb' 1 2 = 3 := by
  rw [← discSignZero_eq_none_iff]
  unfold loopMode discMode wrapPolicy
  split
  · rename_i h
    have hsel : m.getLsbD 5 = true ∨ m.extractLsb' 6 2 ≠ 0 := by simpa using h
    exact ⟨fun _ => or_assoc.1 (.inl hsel), fun _ => rfl⟩
  · rename_i h
    have hsel : ¬(m.getLsbD 5 = true ∨ m.extractLsb' 6 2 ≠ 0) := by simpa using h
    rw [← or_assoc, or_iff_right hsel]

/-- LOOP.UPDATE stops where `MODE` selects no formula (log 15). -/
theorem Impl.loopUpdate_of_none {α : Type} {p : Impl α} {s : State α} (h : loopMode s.cfg.mode = none) :
    p.loopUpdate s = .refused .reservedMode := by
  rw [Impl.loopUpdate, h]

/-- Settles O34: `loopMode` gives no formula on exactly the reserved values, and with one LOOP.UPDATE completes. -/
theorem loopUpdateStopsOnReservedMode : Obligations.LoopUpdateStopsOnReservedMode := by
  intro s
  rw [exec_eq]
  refine ⟨fun h => Impl.loopUpdate_of_none ((loopMode_eq_none_iff _).2 h), fun hdisc hwrap hsign => ?_⟩
  cases hmode : loopMode s.cfg.mode with
  | none =>
    obtain h | h | h := (loopMode_eq_none_iff _).1 hmode
    · exact absurd h (Bool.eq_false_iff.1 hdisc)
    · exact absurd hwrap h
    · exact absurd h hsign
  | some z => exact ⟨_, Impl.loopUpdate_eq_next.2 ⟨z, _, hmode, rfl, rfl⟩⟩

/-! ### The order of the filters -/

/-- A fault of the same kind is recorded in whichever order two lines raise it. -/
theorem firstFault_right_comm (r : Option FaultKind) (a b : Bool) (k : FaultKind) :
    firstFault (firstFault r a k) b k = firstFault (firstFault r b k) a k := by
  cases r <;> cases a <;> cases b <;> rfl

/-- The two filters read and write registers of their own and share only what is raised (R30). -/
theorem State.afterFirQ_afterFirI {α : Type} [DecidableEq α] (s : State α) (n : Num α) :
    (s.afterFirI n).afterFirQ n = (s.afterFirQ n).afterFirI n := by
  simp [State.afterFirI, State.afterFirQ, State.noteIf, State.advance, Bool.or_right_comm, firstFault_right_comm]

/-- Settles O32: each filter finds its cursor where it was, and `State.afterFirQ_afterFirI`. -/
theorem filterOrderIsUnobservable : Obligations.FilterOrderIsUnobservable := by
  intro s hI hQ
  have firI_next {u : State} (h : u.curI < u.cfg.nTaps.toNat) : exec .firI u = .next (u.afterFirI F32.ieee32) :=
    (exec_eq _ u).trans (Impl.firI_eq_next.2 ⟨h, rfl⟩)
  have firQ_next {u : State} (h : u.curQ < u.cfg.nTaps.toNat) : exec .firQ u = .next (u.afterFirQ F32.ieee32) :=
    (exec_eq _ u).trans (Impl.firQ_eq_next.2 ⟨h, rfl⟩)
  refine ⟨(s.afterFirI F32.ieee32).afterFirQ F32.ieee32, ?_, ?_⟩
  · rw [firI_next hI, andThen_next]
    exact firQ_next hQ
  · rw [firQ_next hQ, andThen_next, State.afterFirQ_afterFirI]
    exact firI_next hI

end Sys2Proof.Machine
end

section
/-! PROOFS. What a successful DESIGN leaves (R47), and when it raises NumericFault (R11, R41). -/

namespace Sys2Proof.Machine

variable {α : Type}

/-- A line raises NumericFault by dividing by zero or by a value that is not finite (R11). -/
theorem raisesNumeric_iff {n : Num α} {ds vs : List α} :
    raisesNumeric n ds vs = true ↔ (∃ d ∈ ds, n.feq d n.zero = true) ∨ ∃ v ∈ vs, n.finite v = false := by
  simp [raisesNumeric, anyNonFinite]

/-- The values DESIGN makes for the derived constants (R4), those on the way among them. -/
def CfgRegs.constantsMade (c : CfgRegs α) (n : Num α) : List α :=
  c.fcMade n ++
    [(c.derived n).samplePeriod, n.fmul c.kiFactor c.phaseGain, (c.derived n).integralGain,
      n.fmul c.phaseGain c.phaseGain, (c.derived n).freqGain]

theorem CfgRegs.fc_mem_constantsMade (c : CfgRegs α) (n : Num α) : c.fc n ∈ c.constantsMade n := by
  simp [CfgRegs.constantsMade, CfgRegs.fcMade]

/-- DESIGN makes the values of the constants, then those of the coefficients (R116). -/
theorem CfgRegs.fcMade_append_designMade (c : CfgRegs α) (n : Num α) :
    c.fcMade n ++ c.designMade n =
      c.constantsMade n ++ (List.range c.nTaps.toNat).flatMap (coefficientMade n (c.fc n) c.nTaps.toNat) :=
  (List.append_assoc ..).symm

/-- The centre coefficient is `FC` itself (R114). -/
theorem coefficientMade_centre {n : Num α} {fc : α} {len i : Nat} (h : 2 * i + 1 = len) :
    coefficientMade n fc len i = [fc] := if_pos h

/-- A coefficient beside the centre is a quotient (R114). -/
theorem coefficientMade_beside {n : Num α} {fc : α} {len i : Nat} (h : 2 * i + 1 ≠ len) :
    coefficientMade n fc len i =
      [tapOffset n len i, n.fmul fc n.pi, n.fmul (n.fmul fc n.pi) (tapOffset n len i),
        n.fsin (n.fmul (n.fmul fc n.pi) (tapOffset n len i)), n.fmul n.pi (tapOffset n len i),
        n.fdiv (n.fsin (n.fmul (n.fmul fc n.pi) (tapOffset n len i))) (n.fmul n.pi (tapOffset n len i))] := by
  rw [coefficientMade, if_neg h, coefficient, if_neg h]

/-- Of the values DESIGN makes one has a property exactly if a value for a constant has it or one for a coefficient beside
the centre, since the centre coefficient is a constant. -/
theorem CfgRegs.exists_mem_made_iff (c : CfgRegs α) (n : Num α) (P : α → Prop) :
    (∃ v ∈ c.fcMade n ++ c.designMade n, P v) ↔
      (∃ v ∈ c.constantsMade n, P v) ∨
        ∃ k, k < c.nTaps.toNat ∧ 2 * k + 1 ≠ c.nTaps.toNat ∧
          ∃ v ∈ coefficientMade n (c.fc n) c.nTaps.toNat k, P v := by
  simp only [c.fcMade_append_designMade, List.mem_append, List.mem_flatMap, List.mem_range]
  constructor
  · rintro ⟨v, hv | ⟨k, hk, hv⟩, hP⟩
    · exact .inl ⟨v, hv, hP⟩
    · by_cases hc : 2 * k + 1 = c.nTaps.toNat
      · rw [coefficientMade_centre hc, List.mem_singleton] at hv
        exact .inl ⟨v, hv ▸ c.fc_mem_constantsMade n, hP⟩
      · exact .inr ⟨k, hk, hc, v, hv, hP⟩
  · rintro (⟨v, hv, hP⟩ | ⟨k, hk, -, v, hv, hP⟩)
    · exact ⟨v, .inl hv, hP⟩
    · exact ⟨v, .inr ⟨k, hk, hv⟩, hP⟩

/-- `PREV_SIGN_RESET` of a legal `MODE` (R37). -/
theorem prevSignReset_of_modeLegal {m : Image} (h : modeLegal m = true) :
    (m.extractLsb' 3 2 = 0b00 ∧ (prevSignReset m).getD .zero = .zero) ∨
    (m.extractLsb' 3 2 = 0b01 ∧ (prevSignReset m).getD .zero = .pos) ∨
    (m.extractLsb' 3 2 = 0b11 ∧ (prevSignReset m).getD .zero = .neg) := by
  simp only [modeLegal, Bool.and_eq_true] at h
  obtain ⟨⟨⟨⟨-, hsome⟩, -⟩, -⟩, -⟩ := h
  unfold prevSignReset at *
  generalize m.extractLsb' 3 2 = f at *
  revert f
  decide

/-- Settles O20: the state of `Impl.design_eq_next`, register by register. -/
theorem designCreatesTheStateObjects : Obligations.DesignCreatesTheStateObjects := by
  intro s idx data hlife hrun c n fc d arg bad hfc
  have hbad : raisesNumeric F32.ieee32 [c.sampleRate, c.refPeriod]
      (c.fcMade F32.ieee32 ++ c.designMade F32.ieee32) = true ↔ bad := by
    rw [raisesNumeric_iff, c.exists_mem_made_iff]
    have hdiv : (∃ x ∈ [c.sampleRate, c.refPeriod], F32.ieee32.feq x F32.ieee32.zero = true) ↔
        F32.eq c.sampleRate 0 = true ∨ F32.eq c.refPeriod 0 = true := by simp
    rw [hdiv, or_assoc]
    refine or_congr_right (or_congr_right (or_congr ?_
      (exists_congr fun k => and_congr_right fun _ => and_congr_right fun hk => ?_)))
    · rfl
    · rw [coefficientMade_beside hk]
      simp only [tapOffset, CfgRegs.fc, normalizedCutoff, F32.piImage, F32.ieee32_ofNat, F32.ieee32_fsub,
        F32.ieee32_fdiv, F32.ieee32_fmul, F32.ieee32_fsin, F32.ieee32_pi, F32.ieee32_finite]
      rfl
  refine ⟨_, (exec_eq _ s).trans (Impl.design_eq_next.2 (.inr (.inr ⟨hlife, hfc, hrun, rfl⟩))), rfl, ?_,
    prevSignReset_of_modeLegal (CfgRegs.legal_of_runnable hrun).2, Memory.read_clear s.hi n, Memory.read_clear s.hq n,
    fun hwf a ha => (Memory.read_writeCoefs hwf _ _ _ a).trans (if_neg (Nat.not_lt.2 ha)), ?_, fun h => ?_, fun h => ?_⟩
  · rfl
  · exact Bool.or_eq_true_iff.trans (or_congr_right hbad)
  · exact (firstFault_none _ _).trans (if_pos (hbad.2 h))
  · exact (firstFault_none _ _).trans (if_neg (mt hbad.1 h))

end Sys2Proof.Machine
end

section
/-! PROOFS. The command port with nothing to run on it (R70, R86, R252), and a filter cursor off the history (R74). -/

namespace Sys2Proof.Machine

variable {α : Type}

/-! ### The command port -/

/-- Between commands the step is a move of the command port (R6). -/
theorem step_between_commands {s : State} (hrst : s.rst = false) (hready : s.cmdReady = true) :
    step s = commandStep exec s := by
  rw [step, stepOnce, if_neg (Bool.eq_false_iff.1 hrst), if_pos hready]

/-- The block waits while the port is empty (R70, R252). -/
theorem commandStep_of_empty {run : Instr → State α → Result α} {s : State α} (h : s.cmds = []) :
    commandStep run s = .next s := by
  rw [commandStep, h]

/-- A word with a reserved `op` is accepted and ignored (R86, log 6). -/
theorem commandStep_of_reserved {run : Instr → State α → Result α} {s : State α} {w : CommandWord}
    {rest : List CommandWord} {e : DecodeError} (h : s.cmds = w :: rest) (hdec : decodeCommand w = .error e) :
    commandStep run s = .next (s.accept rest) := by
  simp only [commandStep, h, hdec]

/-- Settles O7: the step is a move of the command port, which finds no word or a reserved one. -/
theorem stepWaitsOrIgnoresReservedWord : Obligations.StepWaitsOrIgnoresReservedWord := by
  intro s hrst hready
  rw [step_between_commands hrst hready]
  exact ⟨commandStep_of_empty, fun _ _ _ => commandStep_of_reserved⟩

/-! ### The filters' stop -/

/-- FIR.I faults where its cursor names no element (R74, log 14). -/
theorem Impl.firI_of_le [DecidableEq α] {p : Impl α} {s : State α} (h : s.cfg.nTaps.toNat ≤ s.curI) :
    p.firI s = .fault .historyIndex := if_neg (Nat.not_lt.2 h)

/-- FIR.Q faults where its cursor names no element (R74, log 14). -/
theorem Impl.firQ_of_le [DecidableEq α] {p : Impl α} {s : State α} (h : s.cfg.nTaps.toNat ≤ s.curQ) :
    p.firQ s = .fault .historyIndex := if_neg (Nat.not_lt.2 h)

/-- Settles O31: each filter's guard is that its cursor is below `N`. -/
theorem filtersStopOffTheHistory : Obligations.FiltersStopOffTheHistory := fun s =>
  ⟨fun h => (exec_eq _ s).trans (Impl.firI_of_le h), fun h => (exec_eq _ s).trans (Impl.firQ_of_le h)⟩

end Sys2Proof.Machine
end

section
/-! PROOFS. Command words and phases against operations (R81, R82, R84, R95), and a table word placed for the next step. -/

namespace Sys2Proof

/-! ### The fields of a command word -/

section CommandWord

variable (op : BitVec 4) (idx : CsrIndex) (data : BitVec 32)

@[simp] theorem opField_commandWord : opField (commandWord op idx data) = op := by
  rw [opField, commandWord, BitVec.extractLsb'_append_eq_of_le (by decide)]
  exact BitVec.extractLsb'_append_eq_left

@[simp] theorem idxField_commandWord : idxField (commandWord op idx data) = idx := by
  rw [idxField, commandWord, BitVec.extractLsb'_append_eq_of_le (by decide)]
  exact BitVec.extractLsb'_append_eq_right

@[simp] theorem dataField_commandWord : dataField (commandWord op idx data) = data :=
  BitVec.extractLsb'_append_eq_right

end CommandWord

/-- A command word is its three fields and nothing else (R81). -/
theorem commandWord_fields (w : CommandWord) : commandWord (opField w) (idxField w) (dataField w) = w := by
  have hupper : opField w ++ idxField w = w.extractLsb' 32 12 :=
    BitVec.extractLsb'_append_extractLsb'_eq_extractLsb' rfl
  rw [commandWord, hupper]
  exact BitVec.extractLsb'_append_extractLsb' (w := 12) (len := 32)

/-! ### Decoding and encoding -/

/-- Settles O3: the fields of the word are read back, and each of the sixteen values of `op` or of the phase computes. -/
theorem opcodeMapIsWhole : Obligations.OpcodeMapIsWhole := by
  refine ⟨fun op idx data => ?_, fun ph => ?_⟩
  · show decodeCommand (commandWord op idx data) = _
    rw [decodeCommand, opField_commandWord, idxField_commandWord, dataField_commandWord]
    cases op with
    | ofFin k => fin_cases k <;> rfl
  · cases ph with
    | ofFin k => fin_cases k <;> rfl

/-- A command word decodes to the one host command whose code it is (R81, R95). -/
theorem decodeCommand_eq_ok_iff {w : CommandWord} {i : Instr} : decodeCommand w = .ok i ↔ encode i = .command w := by
  constructor
  · intro h
    rw [← commandWord_fields w] at h ⊢
    generalize opField w = op, idxField w = idx, dataField w = data at h ⊢
    rw [commandWord, opcodeMapIsWhole.1 op idx data] at h
    split_ifs at h
    all_goals
      cases h
      subst op
      rfl
  · intro h
    cases i with
    | acq | ncoStep | mix | firI | firQ | loopUpdate | lockEval | decStep | tlmEmit => cases h
    | reset | cfgw | csrr | design | tick | eos | serr =>
      cases h
      exact opcodeMapIsWhole.1 ..

/-- Decoding and encoding are inverse to each other (R81, R82, R84, R95). -/
theorem decode_eq_ok_iff {c : Code} {i : Instr} : decode c = .ok i ↔ encode i = c := by
  cases c with
  | command w => exact decodeCommand_eq_ok_iff
  | phase ph => exact Machine.encode_eq_phase_iff.symm

/-- Settles O1, by `decode_eq_ok_iff`. -/
theorem decodeEncodeRoundTrip : Obligations.DecodeEncodeRoundTrip := fun _ => decode_eq_ok_iff.2 rfl

/-- Settles O2, by `decode_eq_ok_iff`. -/
theorem encodeDecodeRoundTrip : Obligations.EncodeDecodeRoundTrip := fun _ _ => decode_eq_ok_iff.1

/-- Settles O4: the decoder computes on each of the ten words. -/
theorem specWordsDecode : Obligations.SpecWordsDecode := by
  unfold Obligations.SpecWordsDecode
  decide

/-! ### A placed table word -/

theorem codeOfTable_of_le {nbits : Nat} (h : nbits ≤ 8) (w : Nat) : codeOfTable nbits w = .phase (BitVec.ofNat 4 w) :=
  if_pos h

theorem codeOfTable_of_not_le {nbits : Nat} (h : ¬ nbits ≤ 8) (w : Nat) :
    codeOfTable nbits w = .command (BitVec.ofNat 44 w) :=
  if_neg h

theorem decodeTableWord_eq_some_iff {nbits w : Nat} {i : Instr} :
    decodeTableWord nbits w = some i ↔ decode (codeOfTable nbits w) = .ok i := by
  rw [decodeTableWord]
  cases decode (codeOfTable nbits w) <;> simp [Except.toOption]

end Sys2Proof

namespace Sys2Proof.Machine

/-- A command word placed at the head of the port is the next command (R6, R81). -/
theorem step_withCode_command {s : State} {w : CommandWord} {i : Instr} (h : decodeCommand w = .ok i) :
    step (s.withCode (.command w)) = exec i { s with rst := false, cmdReady := true } :=
  stepRunsDecodedCommand _ w s.cmds i rfl rfl rfl h

/-- A phase placed in the sequencer selects the next micro-operation (R84). -/
theorem step_withCode_phase {s : State} {ph : Phase} {i : Instr} (h : decodePhase ph = .ok i) :
    step (s.withCode (.phase ph)) = exec i { s with rst := false, cmdReady := false, ph := ph } :=
  stepRunsSequencedMicroOp _ i rfl rfl h

/-- Settles O8: the width of the row tells a phase from a command word. -/
theorem placedWordIsRunNext : Obligations.PlacedWordIsRunNext := by
  intro s nbits w i h
  rw [decodeTableWord_eq_some_iff] at h
  rw [State.withFetchWord]
  by_cases hn : nbits ≤ 8
  · rw [codeOfTable_of_le hn] at h ⊢
    rw [if_pos hn]
    exact step_withCode_phase h
  · rw [codeOfTable_of_not_le hn] at h ⊢
    rw [if_neg hn]
    exact step_withCode_command h

end Sys2Proof.Machine
end

section
/-! PROOFS. The output ports: event and telemetry words (R92, R93) and level outputs (R94). -/

namespace Sys2Proof.Machine

/-! ### Event and telemetry words -/

theorem Event.word_code (e : Event V) : e.word.extractLsb' 32 3 = e.code := BitVec.extractLsb'_append_eq_left

theorem Event.word_data (e : Event V) : e.word.extractLsb' 0 32 = e.data := BitVec.extractLsb'_append_eq_right

/-- Settles O14: an event has its code above its data, and each telemetry field is found under those joined on below it. -/
theorem outputWordsHaveTheirFields : Obligations.OutputWordsHaveTheirFields := by
  refine ⟨fun e => ⟨e.word_code.trans ?_, e.word_data.trans ?_⟩, fun r => ?_⟩
  · cases e <;> rfl
  · cases e with
    | bit b => cases b <;> rfl
    | lockAcq | lockLost _ | anomaly => rfl
  · and_intros
    all_goals
      rw [Telemetry.word]
      repeat rw [BitVec.extractLsb'_append_eq_of_le (by decide)]
    · exact BitVec.extractLsb'_eq_self
    all_goals exact BitVec.extractLsb'_append_eq_right

/-! ### Level outputs -/

theorem State.haltedPin_iff {α : Type} (s : State α) : s.haltedPin = true ↔ s.life = .halted := beq_iff_eq

/-- Settles O57: the pins are read from the fields STATUS and EXIT show (`statusFieldsAreWhereTheyStand`). -/
theorem levelOutputsMirrorRegisters : Obligations.LevelOutputsMirrorRegisters := by
  intro s
  obtain ⟨hlife, hlocked, -, -, -, -, -, -, hexit⟩ := statusFieldsAreWhereTheyStand s
  refine ⟨s.haltedPin_iff, s.haltedPin_iff.trans ?_, rfl, hexit, rfl, hlocked.symm⟩
  rw [hlife]
  cases s.life <;> decide

end Sys2Proof.Machine
end

section
/-! PROOFS. One filter call (R111, R113): the sum, the element written, and when it raises NumericFault. And the constants
and coefficients that DESIGN computes (R4, R114). -/

namespace Sys2Proof.Machine

variable {α : Type}

/-! ### What a filter call raises -/

/-- The filter has made a value that is not finite exactly if a product or a partial sum is not (R11, R111). -/
theorem firTaps_snd_eq_false_iff (n : Num α) (coef hist : Nat → α) (len cur m : Nat) :
    (firTaps n coef hist len cur m).2 = false ↔
      ∃ k, k < m ∧ (n.finite (n.fmul (coef k) (hist ((cur + len - k) % len))) = false ∨
        n.finite (firTaps n coef hist len cur (k + 1)).1 = false) := by
  induction m with
  | zero => simp [firTaps]
  | succ m ih =>
    have hstep : (firTaps n coef hist len cur (m + 1)).2 = false ↔
        (firTaps n coef hist len cur m).2 = false ∨
          (n.finite (n.fmul (coef m) (hist ((cur + len - m) % len))) = false ∨
            n.finite (firTaps n coef hist len cur (m + 1)).1 = false) := by
      simp only [firTaps, Bool.and_eq_false_iff, or_assoc]
    rw [hstep, ih]
    simp only [Nat.lt_succ_iff_lt_or_eq, or_and_right, exists_or, exists_eq_left]

/-- `NUMFAULT` and the record after a line that raises NumericFault exactly if `P` holds (R11, R239). -/
theorem State.noteIf_of_iff (s : State α) {raised : Bool} {P : Prop} (h : raised = true ↔ P) :
    ((s.noteIf raised).numFault = true ↔ s.numFault = true ∨ P) ∧
    (P → (s.noteIf raised).recorded = s.recorded.or (some .numericFault)) ∧
    (¬P → (s.noteIf raised).recorded = s.recorded) := by
  refine ⟨Bool.or_eq_true_iff.trans (or_congr_right h), fun hP => ?_, fun hP => ?_⟩
  · rw [h.2 hP]; rfl
  · rw [Bool.eq_false_iff.2 (mt h.1 hP), noteIf_false]

/-! ### FIR.I and FIR.Q -/

/-- One filter call on the default numerics: the sum in index order, and the values that make it raise NumericFault. -/
theorem fir_raises_iff (coef hist : Memory) (len cur : Nat) (u : V) :
    let r := fir F32.ieee32 coef hist len cur u
    let term := fun k => F32.mul (coef.read k) (r.hist.read ((cur + len - k) % len))
    let sum := fun m => (List.range m).foldl (fun acc k => F32.add acc (term k)) 0
    r.y = sum len ∧
      ((!r.ok) = true ↔ ∃ k, k < len ∧ (F32.finite (term k) = false ∨ F32.finite (sum (k + 1)) = false)) := by
  intro r term sum
  have hsum : ∀ m, (firTaps F32.ieee32 coef.read r.hist.read len cur m).1 = sum m :=
    firTaps_fst F32.ieee32 coef.read r.hist.read len cur
  refine ⟨hsum len, ?_⟩
  simp only [← hsum]
  exact (Bool.not_eq_true' _).to_iff.trans (firTaps_snd_eq_false_iff F32.ieee32 coef.read r.hist.read len cur len)

/-- Settles O29: `fir` on the in-phase registers, and what it raises. -/
theorem firIFiltersTheInPhaseProduct : Obligations.FirIFiltersTheInPhaseProduct := by
  intro s hcur n
  obtain ⟨hy, hraised⟩ := fir_raises_iff s.coef s.hi n s.curI s.loc.mI
  exact ⟨s.afterFirI F32.ieee32, (exec_eq _ s).trans (Impl.firI_eq_next.2 ⟨hcur, rfl⟩), rfl,
    fun hwf => Memory.read_write hwf s.curI s.loc.mI, rfl, hy, s.noteIf_of_iff hraised⟩

/-- Settles O30: `fir` on the quadrature registers, and what it raises. -/
theorem firQFiltersTheQuadratureProduct : Obligations.FirQFiltersTheQuadratureProduct := by
  intro s hcur n
  obtain ⟨hy, hraised⟩ := fir_raises_iff s.coef s.hq n s.curQ s.loc.mQ
  exact ⟨s.afterFirQ F32.ieee32, (exec_eq _ s).trans (Impl.firQ_eq_next.2 ⟨hcur, rfl⟩), rfl,
    fun hwf => Memory.read_write hwf s.curQ s.loc.mQ, rfl, hy, s.noteIf_of_iff hraised⟩

/-! ### DESIGN -/

theorem CfgRegs.runnable_of_wellFormed {c : CfgRegs α} {p : Impl α} (h : c.wellFormed p = true) :
    c.runnable p = true := by
  simp only [CfgRegs.wellFormed, Bool.and_eq_true] at h
  obtain ⟨⟨hrun, -⟩, -⟩ := h
  exact hrun

/-- `COEF[k]` under the default numerics, with the centre tap told as R114 does. -/
theorem coefficient_ieee32 (fc : V) {len k : Nat} (hk : k < len) :
    coefficient F32.ieee32 fc len k =
      if 2 * k = len - 1 then fc
      else F32.div (F32.sin (F32.mul (F32.mul fc F32.piImage) (tapOffset F32.ieee32 len k)))
        (F32.mul F32.piImage (tapOffset F32.ieee32 len k)) := by
  have hcentre : 2 * k + 1 = len ↔ 2 * k = len - 1 := by omega
  simp only [coefficient, hcentre]
  rfl

/-- Settles O19: the launched state of `Impl.design_eq_next`, whose coefficients are those of `coefficient_ieee32`. -/
theorem designComputesConstantsAndCoefficients : Obligations.DesignComputesConstantsAndCoefficients := by
  intro s idx data hlife hwf hcfg hfc
  refine ⟨_, (exec_eq _ s).trans (Impl.design_eq_next.2
    (.inr (.inr ⟨hlife, hfc, CfgRegs.runnable_of_wellFormed hcfg, rfl⟩))), rfl, rfl, rfl, rfl, rfl, fun k hk => ?_⟩
  exact (Memory.read_writeCoefs hwf _ _ _ k).trans ((if_pos hk).trans (coefficient_ieee32 _ hk))

end Sys2Proof.Machine
end

section
/-! PROOFS. Many filter calls: what the history holds at each age (R110, R112), the convolution and the steady state (R119).
And the symmetry of the coefficients (R120). -/

namespace Sys2Proof.Machine

variable {α : Type}

/-! ### The history under successive calls -/

/-- Age 0 is the cursor's own element, and no other age is (R112). -/
theorem aged_eq_cur_iff {len cur k : Nat} (hcur : cur < len) (hk : k < len) :
    (cur + len - k) % len = cur ↔ k = 0 := by
  rcases Nat.lt_or_ge cur k with hlt | hge
  · rw [Nat.mod_eq_of_lt (by omega)]; omega
  · rw [show cur + len - k = cur - k + len by omega, Nat.add_mod_right, Nat.mod_eq_of_lt (by omega)]; omega

/-- When the cursor advances every element grows older by one (R112). -/
theorem aged_succ {len cur k : Nat} (hcur : cur < len) (hk : k < len) :
    ((cur + 1) % len + len - (k + 1)) % len = (cur + len - k) % len := by
  rcases Nat.lt_or_ge (cur + 1) len with hlt | hge
  · rw [Nat.mod_eq_of_lt hlt, Nat.add_right_comm, Nat.add_sub_add_right]
  · obtain rfl : len = cur + 1 := by omega
    rw [Nat.mod_self, show cur + (cur + 1) - k = 0 + (cur + 1) - (k + 1) + (cur + 1) by omega, Nat.add_mod_right]

/-- The input `k` calls before call `t`, or, from before the first call, what the history held then (R110). -/
def inputOfAge (z : α) (hist : Memory α) (len cur : Nat) (u : Nat → α) (t k : Nat) : α :=
  if k ≤ t then u (t - k) else hist.get z ((cur + len - (k - t)) % len)

@[simp] theorem inputOfAge_zero (z : α) (hist : Memory α) (len cur : Nat) (u : Nat → α) (t : Nat) :
    inputOfAge z hist len cur u t 0 = u t := if_pos t.zero_le

/-- One call later an input is one call older. -/
theorem inputOfAge_succ_succ (z : α) (hist : Memory α) (len cur : Nat) (u : Nat → α) (t k : Nat) :
    inputOfAge z hist len cur u (t + 1) (k + 1) = inputOfAge z hist len cur u t k := by
  simp only [inputOfAge, Nat.add_le_add_iff_right, Nat.add_sub_add_right]

section Calls

variable [DecidableEq α] (n : Num α) (coef : Memory α) {hist : Memory α} {len cur : Nat} (u : Nat → α)

theorem firCalls_cur_lt (hcur : cur < len) (t : Nat) : (firCalls n coef len (hist, cur) u t).2 < len := by
  cases t with
  | zero => exact hcur
  | succ t => exact Nat.mod_lt _ (by omega)

theorem firCalls_canonical (hh : hist.canonical n.zero) (t : Nat) :
    (firCalls n coef len (hist, cur) u t).1.canonical n.zero := by
  induction t with
  | zero => exact hh
  | succ t ih => exact Memory.canonical_put ih _ _

/-- One call puts its input at age 0 and leaves the elements of every other age (R111, R112). -/
theorem fir_get_aged (hh : hist.canonical n.zero) (hcur : cur < len) (v : α) {k : Nat} (hk : k < len) :
    (fir n coef hist len cur v).hist.get n.zero ((cur + len - k) % len) =
      if k = 0 then v else hist.get n.zero ((cur + len - k) % len) := by
  simp only [fir_get n coef hh, aged_eq_cur_iff hcur hk]

/-- After call `t` the element of age `k` is the input `k` calls before (R112). -/
theorem fir_firCalls_get_aged (hh : hist.canonical n.zero) (hcur : cur < len) (t : Nat) {k : Nat} (hk : k < len) :
    let p := firCalls n coef len (hist, cur) u t
    (fir n coef p.1 len p.2 (u t)).hist.get n.zero ((p.2 + len - k) % len) =
      inputOfAge n.zero hist len cur u t k := by
  induction t generalizing k with
  | zero =>
    refine (fir_get_aged n coef hh hcur (u 0) hk).trans ?_
    cases k with
    | zero => simp
    | succ k => simp [inputOfAge]
  | succ t ih =>
    refine (fir_get_aged n coef (firCalls_canonical n coef u hh (t + 1)) (firCalls_cur_lt n coef u hcur (t + 1))
      (u (t + 1)) hk).trans ?_
    cases k with
    | zero => simp
    | succ k =>
      have hk' : k < len := Nat.lt_of_succ_lt hk
      rw [if_neg k.succ_ne_zero, inputOfAge_succ_succ, ← ih hk', ← aged_succ (firCalls_cur_lt n coef u hcur t) hk']
      rfl

/-- The output of call `t`: the sum of R111 over the inputs by age. -/
theorem fir_firCalls_y (hh : hist.canonical n.zero) (hcur : cur < len) (t : Nat) :
    let p := firCalls n coef len (hist, cur) u t
    (fir n coef p.1 len p.2 (u t)).y =
      (List.range len).foldl
        (fun acc k => n.fadd acc (n.fmul (coef.get n.zero k) (inputOfAge n.zero hist len cur u t k))) n.zero := by
  intro p
  refine (firTaps_fst ..).trans (List.foldl_ext _ _ _ fun acc k hk => ?_)
  exact congrArg (fun v => n.fadd acc (n.fmul _ v)) (fir_firCalls_get_aged n coef u hh hcur t (List.mem_range.1 hk))

end Calls

/-! ### The convolution and the steady state -/

/-- Under `NUM_REAL` the sum of R111 is a sum in any order. -/
theorem realNum_foldl_fadd (f : Nat → ℝ) (m : Nat) :
    (List.range m).foldl (fun acc k => realNum.fadd acc (f k)) realNum.zero = ∑ k ∈ Finset.range m, f k := by
  induction m with
  | zero => exact realNum_zero
  | succ m ih => rw [List.range_succ, List.foldl_append, ih, Finset.sum_range_succ]; rfl

/-- Settles O41: `fir_firCalls_y` with a sum of real numbers; FIR.I and FIR.Q are one call each. -/
theorem filterIsAConvolution : Obligations.FilterIsAConvolution := by
  refine ⟨fun coef hist u len cur t hh hcur => ?_, fun s hcur => ?_, fun s hcur => ?_⟩
  · exact (fir_firCalls_y realNum coef u hh hcur t).trans (realNum_foldl_fadd _ len)
  · exact ⟨_, Impl.firI_eq_next.2 ⟨hcur, rfl⟩, rfl, rfl⟩
  · exact ⟨_, Impl.firQ_eq_next.2 ⟨hcur, rfl⟩, rfl, rfl⟩

/-- From the N-th call with a constant input on, every input of an age below `N` is that constant (R119). -/
theorem inputOfAge_const {z c : α} {hist : Memory α} {len cur t k : Nat} (ht : len ≤ t + 1) (hk : k < len) :
    inputOfAge z hist len cur (fun _ => c) t k = c := if_pos (by omega)

/-- The output from the N-th call with a constant input on, in the order of R111 (R119). -/
theorem fir_firCalls_const_y [DecidableEq α] (n : Num α) (coef : Memory α) {hist : Memory α} {len cur : Nat} (c : α)
    (hh : hist.canonical n.zero) (hcur : cur < len) {t : Nat} (ht : len ≤ t + 1) :
    let p := firCalls n coef len (hist, cur) (fun _ => c) t
    (fir n coef p.1 len p.2 c).y =
      (List.range len).foldl (fun acc k => n.fadd acc (n.fmul (coef.get n.zero k) c)) n.zero := by
  intro p
  refine (fir_firCalls_y n coef (fun _ => c) hh hcur t).trans (List.foldl_ext _ _ _ fun acc k hk => ?_)
  rw [inputOfAge_const ht (List.mem_range.1 hk)]

/-- Settles O40: `fir_firCalls_const_y` in either numerics, where exact arithmetic takes the input out of the sum. -/
theorem filterReachesItsSteadyState : Obligations.FilterReachesItsSteadyState := by
  refine ⟨fun coef hist len cur c hh hcur k hk => ?_, fun coef hist len cur c hh hcur k hk => ?_⟩
  · calc _ = _ := fir_firCalls_const_y realNum coef c hh hcur hk
      _ = ∑ j ∈ Finset.range len, coef.get realNum.zero j * c := realNum_foldl_fadd _ len
      _ = _ := by rw [← Finset.sum_mul, mul_comm]
  · exact fir_firCalls_const_y F32.ieee32 coef c hh hcur hk

/-! ### Symmetry of the coefficients -/

theorem realNum_fdiv {b : ℝ} (a : ℝ) (hb : b ≠ 0) : realNum.fdiv a b = a / b := if_neg hb

/-- In exact arithmetic `d_i` is the distance from the centre, `(N-1) / 2` (R114, R118). -/
theorem realNum_tapOffset (len i : Nat) : tapOffset realNum len i = (i : ℝ) - ((len - 1 : Nat) : ℝ) / 2 :=
  congrArg ((i : ℝ) - ·) (realNum_fdiv _ two_ne_zero)

theorem realNum_tapOffset_ne_zero {len i : Nat} (hi : i < len) (hc : 2 * i + 1 ≠ len) :
    tapOffset realNum len i ≠ 0 := by
  rw [realNum_tapOffset, sub_ne_zero, ne_eq, eq_div_iff two_ne_zero]
  norm_cast
  omega

/-- Mirrored taps stand at opposite distances from the centre (R120). -/
theorem realNum_tapOffset_mirror {len i : Nat} (hi : i < len) :
    tapOffset realNum len (len - 1 - i) = -tapOffset realNum len i := by
  rw [realNum_tapOffset, realNum_tapOffset, Nat.cast_sub (Nat.le_sub_one_of_lt hi)]
  ring

/-- A coefficient beside the centre in exact arithmetic (R114). -/
theorem realNum_coefficient {len i : Nat} (fc : ℝ) (hi : i < len) (hc : 2 * i + 1 ≠ len) :
    coefficient realNum fc len i =
      Real.sin (fc * Real.pi * tapOffset realNum len i) / (Real.pi * tapOffset realNum len i) :=
  (if_neg hc).trans (realNum_fdiv _ (mul_ne_zero Real.pi_ne_zero (realNum_tapOffset_ne_zero hi hc)))

/-- Settles O42: the mirror image of the centre is the centre, and beside it numerator and denominator are both odd in the
distance from it. -/
theorem designedCoefficientsAreSymmetric : Obligations.DesignedCoefficientsAreSymmetric := by
  intro fc len i hi
  by_cases hc : 2 * i + 1 = len
  · rw [show len - 1 - i = i by omega]
  · rw [realNum_coefficient fc hi hc, realNum_coefficient fc (i := len - 1 - i) (by omega) (by omega),
      realNum_tapOffset_mirror hi, mul_neg, mul_neg, Real.sin_neg, neg_div_neg_eq]

end Sys2Proof.Machine
end

section
/-! PROOFS. NCO.STEP and MIX (R130 to R137): what they leave, what they raise, and the record of a command (R239). -/

namespace Sys2Proof.Machine.F32

/-- The product of a factor that is not finite is not finite (R9): a NaN or an infinity. -/
theorem finite_mul_eq_false_of_left {a b : V} (h : finite a = false) : finite (mul a b) = false := by
  unfold mul
  split
  · exact finite_nanOf ..
  · next hnan =>
    have hinf : isInf a = true := by
      simp only [finite, isNaN, isInf, Bool.or_eq_true, decide_eq_true_eq, decide_eq_false_iff_not, not_or] at *
      omega
    rw [hinf, Bool.true_or, if_pos rfl]
    split
    · exact finite_nanOf ..
    · rw [finite, mag_pack _ (by decide)]
      decide

/-- Either zero compares equal to `+0` (R9). -/
theorem eq_zero_of_mag_eq_zero {v : V} (h : mag v = 0) : eq v 0 = true := by
  have hnan : isNaN v = false := by simp [isNaN, h]
  rw [eq_eq hnan (by decide), show key v = 0 by simp [key, h]]
  decide

end Sys2Proof.Machine.F32

namespace Sys2Proof.Machine

variable {α : Type}

/-! ### The record -/

/-- Of three lines in a row the first that raises a fault makes the record (R239). -/
theorem firstFault_three (r : Option FaultKind) (a b c : Bool) (k l m : FaultKind) :
    firstFault (firstFault (firstFault r a k) b l) c m =
      r.or (if a then some k else if b then some l else if c then some m else none) := by
  simp only [firstFault, Option.or_assoc]
  cases a <;> cases b <;> rfl

/-- What NCO.STEP raises: the division and the values up to the wrap, then the counter, then the references (R239). -/
theorem Impl.ncoStep_raises {p : Impl α} {s t : State α} (h : p.ncoStep s = .next t) :
    ∃ division full references : Bool, (p.num.feq s.osc.tPeriod p.num.zero = true → division = true) ∧
      t.numFault = (s.numFault || division || references) ∧ t.wcOvf = (s.wcOvf || full) ∧
      t.recorded = s.recorded.or (if division then some .numericFault else if full then some .counterOverflow
        else if references then some .numericFault else none) := by
  cases h
  exact ⟨_, _, _, fun hzero => raisesNumeric_of_zero_divisor (List.mem_singleton_self _) hzero _, rfl, rfl,
    firstFault_three ..⟩

/-- Every other micro-operation raises NumericFault or nothing (R11, R41). -/
theorem Impl.microOp_raises [DecidableEq α] {p : Impl α} {i : Instr} {s t : State α}
    (hi : ∃ ph, encode i = .phase ph) (hnco : i ≠ .ncoStep) (h : p.exec i s = .next t) :
    ∃ raised : Bool, t.numFault = (s.numFault || raised) ∧ t.wcOvf = s.wcOvf ∧
      t.recorded = firstFault s.recorded raised .numericFault := by
  rcases microOp_cases hi with rfl | rfl | rfl | rfl | rfl | rfl | rfl | rfl | rfl
  · cases h; exact ⟨_, rfl, rfl, rfl⟩
  · exact absurd rfl hnco
  · cases h; exact ⟨_, rfl, rfl, rfl⟩
  · obtain ⟨-, rfl⟩ := Impl.firI_eq_next.1 h
    exact ⟨_, rfl, rfl, rfl⟩
  · obtain ⟨-, rfl⟩ := Impl.firQ_eq_next.1 h
    exact ⟨_, rfl, rfl, rfl⟩
  · obtain ⟨z, r, -, -, rfl⟩ := Impl.loopUpdate_eq_next.1 h
    exact ⟨_, rfl, rfl, rfl⟩
  · cases h; exact ⟨_, rfl, rfl, rfl⟩
  · obtain h' | ⟨g, -, -, -, h'⟩ := p.decStep_cases s <;>
      (cases h.symm.trans h'; exact ⟨false, (Bool.or_false _).symm, rfl, (firstFault_false ..).symm⟩)
  · cases h; exact ⟨false, (Bool.or_false _).symm, rfl, (firstFault_false ..).symm⟩

/-- A micro-operation replaces no record; where there is none it raises nothing, or records a fault whose flag it has
set (R239, R41, R42). -/
theorem Impl.microOp_recorded [DecidableEq α] {p : Impl α} {i : Instr} {s t : State α}
    (hi : ∃ ph, encode i = .phase ph) (h : p.exec i s = .next t) :
    (s.recorded ≠ none → t.recorded = s.recorded) ∧
    (s.recorded = none →
      (t.recorded = none ∧ t.numFault = s.numFault ∧ t.wcOvf = s.wcOvf) ∨
      (t.recorded = some .numericFault ∧ t.numFault = true) ∨
      (t.recorded = some .counterOverflow ∧ t.wcOvf = true ∧ i = .ncoStep)) := by
  obtain rfl | hnco := eq_or_ne i .ncoStep
  · obtain ⟨division, full, references, -, hn, hw, hr⟩ := Impl.ncoStep_raises h
    rw [hn, hw, hr]
    cases s.recorded with
    | some f => simp
    | none => cases division <;> cases full <;> cases references <;> simp
  · obtain ⟨raised, hn, hw, hr⟩ := Impl.microOp_raises hi hnco h
    rw [hn, hw, hr]
    cases s.recorded with
    | some f => simp
    | none => cases raised <;> simp

/-! ### NCO.STEP and MIX -/

/-- Settles O27: the step of `ncoAdvance` on the default numerics, whose three lines raise in order. -/
theorem ncoStepAdvancesTheOscillator : Obligations.NcoStepAdvancesTheOscillator := by
  intro s twoPi sp inc a acc th division full references
  have hdiv : raisesNumeric F32.ieee32 [s.osc.tPeriod] [sp, inc, a, acc] = division := by
    simp [raisesNumeric, anyNonFinite, division, Bool.or_assoc]
  have href : raisesNumeric F32.ieee32 [] [th, F32.cos th, F32.sin th, F32.neg (F32.sin th)] = references := by
    simp [raisesNumeric, anyNonFinite, references, Bool.or_assoc]
  have hadv : ncoAdvance F32.ieee32 s.drv.samplePeriod s.osc.tPeriod s.osc.tPhase s.osc.acc =
      { acc := acc, wrapped := F32.gt a twoPi, i := F32.cos th, q := F32.neg (F32.sin th), toWrap := [sp, inc, a, acc]
        afterWrap := [th, F32.cos th, F32.sin th, F32.neg (F32.sin th)] } := by
    simp only [ncoAdvance, phaseIncrement, F32.ieee32_twoPi]
    rfl
  have hwc : wcNext (some Config.wcBits) (F32.gt a twoPi) s.osc.wc =
      if F32.gt a twoPi = true ∧ s.osc.wc < 2 ^ Config.wcBits - 1 then s.osc.wc + 1 else s.osc.wc := by
    simp only [wcNext, wcFull_some, Bool.and_eq_true, Bool.not_eq_true', decide_eq_false_iff_not, Nat.not_le]
  rw [exec, execNcoStep, Impl.ncoStep, Impl.ieee32_num, hadv, ← hdiv, ← href, ← hwc, ← firstFault_three]
  rfl

/-- Settles O28: the two products and the one line that raises. -/
theorem mixMultipliesTheReferences : Obligations.MixMultipliesTheReferences := by
  intro s mI mQ raised
  have hraised : raisesNumeric F32.ieee32 [] [mI, mQ] = raised := by simp [raisesNumeric, anyNonFinite, raised]
  rw [← hraised]
  rfl

/-- Settles O39: a product of a bad sample is not finite, a zero period is a zero divisor, a TICK clears the record, and
`Impl.microOp_recorded`. -/
theorem numericFaultIsRecorded : Obligations.NumericFaultIsRecorded := by
  refine ⟨fun s t => ⟨fun hx h => ?_, fun hzero h => ?_⟩, fun s idx data hlife => ?_, fun i s t hi h => ?_⟩
  · rw [mixMultipliesTheReferences s] at h
    cases h
    simp [F32.finite_mul_eq_false_of_left hx]
  · rw [exec_eq] at h
    obtain ⟨division, full, references, hdivision, hn, -, hr⟩ := Impl.ncoStep_raises h
    have hdivision : division = true := hdivision (by simpa using F32.eq_zero_of_mag_eq_zero hzero)
    rw [hn, hr, hdivision]
    simp
  · have htick {u : State} (hu : u.life = .running) :
        exec (.tick idx data) u = Impl.ieee32.runTick (u.beginTick data) := if_pos hu
    rw [htick hlife, htick (u := { s with recorded := none }) hlife]
    rfl
  · rw [exec_eq] at h
    exact Impl.microOp_recorded hi h

end Sys2Proof.Machine
end

section
/-! PROOFS. LOOP.UPDATE (R150 to R154): the discriminator as bits 2:1 of MODE select it (R37), and the step. -/

namespace Sys2Proof.Machine

variable {α : Type}

/-! ### The discriminator -/

/-- The sign of zero that the values of `DISC_SIGN_ZERO` with a meaning encode (R37). -/
theorem discSignZero_of_ne_reserved {m : Image} (h : m.extractLsb' 1 2 ≠ 0b11) :
    discSignZero m =
      some (if m.extractLsb' 1 2 = 0b00 then .neg else if m.extractLsb' 1 2 = 0b01 then .zero else .pos) := by
  unfold discSignZero
  generalize m.extractLsb' 1 2 = f at h ⊢
  revert f
  decide

/-- With the other selectors at the values the spec defines, `DISC_SIGN_ZERO` alone decides (R37, R155, R158). -/
theorem loopMode_eq_discSignZero {m : Image} (hdisc : m.getLsbD 5 = false) (hwrap : m.extractLsb' 6 2 = 0) :
    loopMode m = discSignZero m := by
  rw [loopMode, discMode, wrapPolicy, hdisc, hwrap]
  rfl

/-- The discriminator (R151): `w` or its negation by the sign of `v`, and by `z` where `v` has none. -/
theorem fsgnmul_sgn3z (n : Num α) (z : Sign) (v w : α) :
    fsgnmul n (sgn3z n z v) w =
      if n.fgt v n.zero = true then w else if n.fgt n.zero v = true then n.fneg w else fsgnmul n z w := by
  unfold sgn3z
  split_ifs <;> rfl

/-- With no reserved selector value `MODE` gives the discriminator's value for an in-phase sum without a sign: the
negation, zero or the value itself (R37, R151). -/
theorem exists_loopMode_eq_some {m : Image} (hsign : m.extractLsb' 1 2 ≠ 0b11) (hdisc : m.getLsbD 5 = false)
    (hwrap : m.extractLsb' 6 2 = 0) (n : Num α) (w : α) :
    ∃ z, loopMode m = some z ∧ fsgnmul n z w =
      if m.extractLsb' 1 2 = 0b00 then n.fneg w else if m.extractLsb' 1 2 = 0b01 then n.zero else w := by
  refine ⟨_, (loopMode_eq_discSignZero hdisc hwrap).trans (discSignZero_of_ne_reserved hsign), ?_⟩
  split_ifs <;> rfl

/-! ### LOOP.UPDATE -/

/-- Settles O33: the sign of zero gives the discriminator's value, `loopFilter` makes the others from it, and one line
raises. -/
theorem loopUpdateCorrectsTheOscillator : Obligations.LoopUpdateCorrectsTheOscillator := by
  intro s hsign hdisc hwrap err errInt errC tPhase tPeriod raised
  obtain ⟨z, hmode, hzero⟩ := exists_loopMode_eq_some hsign hdisc hwrap F32.ieee32 s.loc.sQ
  have herr : fsgnmul F32.ieee32 (sgn3z F32.ieee32 z s.loc.sI) s.loc.sQ = err := by
    rw [fsgnmul_sgn3z, hzero, F32.ieee32_zero]
    rfl
  have hraised : raisesNumeric F32.ieee32 []
      [err, F32.mul err s.drv.samplePeriod, errInt, F32.mul errInt s.drv.integralGain, errC,
        F32.mul s.cfg.phaseGain errC, tPhase, F32.mul s.drv.freqGain errC, tPeriod] = raised := by
    simp [raisesNumeric, anyNonFinite, raised, Bool.or_assoc]
  rw [exec_eq]
  refine Impl.loopUpdate_eq_next.2 ⟨z, _, hmode, rfl, ?_⟩
  rw [← hraised, Impl.ieee32_num, loopFilter, herr]
  rfl

end Sys2Proof.Machine
end

section
/-! PROOFS. LOCK.EVAL (R170 to R174): the events on a change of the locked state, and the step. -/

namespace Sys2Proof.Machine

variable {α : Type}

/-- LOCK.EVAL's transfers to the event port: one word on a change of the locked state and none without (R174). -/
theorem map_event_lockEvents (old new : Bool) (lockM : α) :
    (lockEvents old new lockM).map Output.event =
      if old = false ∧ new = true then [Output.event .lockAcq]
      else if old = true ∧ new = false then [Output.event (.lockLost lockM)] else [] := by
  cases old <;> cases new <;> rfl

/-- Settles O35: the four values `lockMetrics` makes raise on one line, and `lockEvents` sends the event of the edge. -/
theorem lockEvalSetsLockAndSignalsEdges : Obligations.LockEvalSetsLockAndSignalsEdges := by
  intro s si2 sq2 lockM qualM new raised
  have hraised : raisesNumeric F32.ieee32 [] [si2, sq2, lockM, qualM] = raised := by
    simp [raisesNumeric, anyNonFinite, raised, Bool.or_assoc]
  rw [← hraised, ← map_event_lockEvents]
  rfl

end Sys2Proof.Machine
end

section
/-! PROOFS. DEC.STEP (R185 to R194): when it only moves on, the table of one interval, and the step on a transition. -/

namespace Sys2Proof.Machine

variable {α : Type}

/-! ### The two outcomes of the step -/

/-- A tick that does not qualify, or whose sign is the recorded one, leaves the decoder as it is (R186, R187, R188). -/
theorem Impl.decStep_eq_advance {p : Impl α} {s : State α}
    (h : qualifies p.num s.dec.locked s.cfg.ampThr s.loc.sI = false ∨ sgn2 p.num s.loc.sI = s.dec.prevSign) :
    p.decStep s = .next s.advance := by
  obtain h' | ⟨g, hne, rfl, hq, -⟩ := p.decStep_cases s
  · exact h'
  · obtain h | h := h
    · exact absurd (hq.symm.trans h) (by decide)
    · exact absurd h hne

/-- A qualifying tick with a new sign is a transition (R188). -/
theorem Impl.decStep_eq_transition {p : Impl α} {s : State α}
    (hq : qualifies p.num s.dec.locked s.cfg.ampThr s.loc.sI = true) (hne : sgn2 p.num s.loc.sI ≠ s.dec.prevSign) :
    p.decStep s = .next (s.transition (sgn2 p.num s.loc.sI)).advance := by
  rw [Impl.decStep, if_pos hq, if_neg hne]

/-- A tick qualifies exactly when it is locked and `|S_I|` exceeds the threshold (R186, R187). -/
theorem qualifies_eq_true_iff {n : Num α} {locked : Bool} {ampThr sI : α} :
    qualifies n locked ampThr sI = true ↔ locked = true ∧ n.fgt (n.fabs sI) ampThr = true := by
  rw [qualifies, Bool.and_eq_true]

/-- A tick does not qualify exactly when it is unlocked or `|S_I|` does not exceed the threshold (R186, R187). -/
theorem qualifies_eq_false_iff {n : Num α} {locked : Bool} {ampThr sI : α} :
    qualifies n locked ampThr sI = false ↔ locked = false ∨ n.fgt (n.fabs sI) ampThr = false := by
  rw [qualifies, Bool.and_eq_false_iff]

/-! ### The table of one interval -/

/-- An interval is short up to and including `2 * w = HALF_THR2` (R190). -/
theorem isLong_eq_false_iff {w halfThr2 : Nat} : isLong w halfThr2 = false ↔ 2 * w ≤ halfThr2 := by
  rw [isLong, decide_eq_false_iff_not, Nat.not_lt]

/-- The table of R194 by the interval and then by `SHORT` before it, as `SHORT` after it and the events. -/
theorem decodeInterval_isLong (short : Bool) (w halfThr2 : Nat) :
    decodeInterval (α := α) short (isLong w halfThr2) =
      if 2 * w ≤ halfThr2 then (if short = false then (true, []) else (false, [.bit false]))
      else if short = false then (false, [.bit true]) else (false, [.bit true, .anomaly]) := by
  simp only [← isLong_eq_false_iff]
  cases isLong w halfThr2 <;> cases short <;> rfl

/-! ### The obligations -/

/-- Settles O36: each of the three conditions excludes a transition. -/
theorem decStepIsDormant : Obligations.DecStepIsDormant := by
  intro s h
  rw [← or_assoc] at h
  exact Impl.decStep_eq_advance (h.imp_left qualifies_eq_false_iff.2)

/-- Settles O37: the step is the transition, and `decodeInterval_isLong` gives `SHORT` and the events of each row. -/
theorem decStepDecodesTransitions : Obligations.DecStepDecodesTransitions := by
  intro s sign hlocked hamp hne after
  have htransition : exec .decStep s = .next (after
      (decodeInterval (α := V) s.dec.short (isLong s.osc.wc s.drv.halfThr2)).1
      (decodeInterval s.dec.short (isLong s.osc.wc s.drv.halfThr2)).2) :=
    Impl.decStep_eq_transition (qualifies_eq_true_iff.2 ⟨hlocked, hamp⟩) hne
  rw [htransition, decodeInterval_isLong]
  split_ifs <;> rfl

end Sys2Proof.Machine
end

section
/-! PROOFS. The lifecycle's moves (R245), and the host commands EOS and SERR (R218, R219) with the ends of a run (R225). -/

namespace Sys2Proof.Machine

variable {α : Type}

/-! ### The moves of the lifecycle -/

/-- What an operation does to `LIFE`: nothing, or one of the moves of R245, with the exit status it leaves (R39). -/
theorem Impl.exec_life [DecidableEq α] {p : Impl α} {i : Instr} {s t : State α} (h : p.exec i s = .next t) :
    t.life = s.life ∨
    ((∃ idx data, i = .reset idx data) ∧ t.life = .unconfigured) ∨
    ((∃ idx data, i = .design idx data) ∧ s.life = .unconfigured ∧
      (t.life = .running ∨
        (t.life = .halted ∧ t.cause = .configurationError ∧ t.exitCode = p.exitFailCode))) ∨
    ((∃ idx data, i = .serr idx data) ∧ s.life = .running ∧ t.life = .halted ∧ t.exitCode = p.exitFailCode) ∨
    ((∃ idx data, i = .eos idx data) ∧ s.life = .running ∧ t = s.finish) := by
  cases i with
  | reset idx data => cases h; exact .inr (.inl ⟨⟨idx, data, rfl⟩, rfl⟩)
  | cfgw => obtain ⟨-, rfl⟩ | ⟨-, rfl⟩ := Impl.cfgw_eq_next.1 h <;> exact .inl rfl
  | csrr => cases h; exact .inl rfl
  | design idx data =>
    obtain ⟨-, rfl⟩ | ⟨hlife, -, rfl⟩ | ⟨hlife, -, -, rfl⟩ := Impl.design_eq_next.1 h
    · exact .inl rfl
    · exact .inr (.inr (.inl ⟨⟨idx, data, rfl⟩, hlife, .inr ⟨rfl, rfl, rfl⟩⟩))
    · exact .inr (.inr (.inl ⟨⟨idx, data, rfl⟩, hlife, .inl rfl⟩))
  | tick =>
    obtain ⟨-, hrun⟩ | ⟨-, rfl⟩ := Impl.tick_eq_next.1 h
    · exact .inl (runTick_keepsSetup hrun).life
    · exact .inl rfl
  | eos idx data =>
    obtain ⟨hlife, rfl⟩ | ⟨-, rfl⟩ := eos_eq_next.1 h
    · exact .inr (.inr (.inr (.inr ⟨⟨idx, data, rfl⟩, hlife, rfl⟩)))
    · exact .inl rfl
  | serr idx data =>
    obtain ⟨hlife, rfl⟩ | ⟨-, rfl⟩ := Impl.serr_eq_next.1 h
    · exact .inr (.inr (.inr (.inl ⟨⟨idx, data, rfl⟩, hlife, rfl, rfl⟩)))
    · exact .inl rfl
  | _ => exact .inl (microOp_keepsSetup ⟨_, rfl⟩ h).life

/-- HALTED is left by RESET alone (R222, R241). -/
theorem Impl.exec_leaves_halted [DecidableEq α] {p : Impl α} {i : Instr} {s t : State α} (h : p.exec i s = .next t)
    (hs : s.life = .halted) (ht : t.life ≠ .halted) : ∃ idx data, i = .reset idx data := by
  obtain hlife | ⟨hi, -⟩ | ⟨-, hlife, -⟩ | ⟨-, hlife, -⟩ | ⟨-, hlife, -⟩ := Impl.exec_life h
  · exact absurd (hlife.trans hs) ht
  · exact hi
  all_goals cases hs.symm.trans hlife

/-- HALTED is entered by EOS, or by a fatal error with the failure code as exit status (R218, R240). -/
theorem Impl.exec_enters_halted [DecidableEq α] {p : Impl α} {i : Instr} {s t : State α} (h : p.exec i s = .next t)
    (hs : s.life ≠ .halted) (ht : t.life = .halted) :
    ((∃ idx data, i = .eos idx data) ∧ t = s.finish) ∨
      ((¬∃ idx data, i = .eos idx data) ∧ t.exitCode = p.exitFailCode) := by
  obtain hlife | ⟨-, hlife⟩ | ⟨⟨idx, data, rfl⟩, -, hlife | ⟨-, -, hexit⟩⟩ | ⟨⟨idx, data, rfl⟩, -, -, hexit⟩ |
    ⟨hi, -, hfinish⟩ := Impl.exec_life h
  · exact absurd (hlife.symm.trans ht) hs
  · cases ht.symm.trans hlife
  · cases ht.symm.trans hlife
  · exact .inr ⟨nofun, hexit⟩
  · exact .inr ⟨nofun, hexit⟩
  · exact .inl ⟨hi, hfinish⟩

/-! ### The ends of a run -/

/-- Settles O15: the RUNNING case of `eos_eq_next`. -/
theorem eosEndsCleanly : Obligations.EosEndsCleanly := fun s _ _ h =>
  (exec_eq _ s).trans (eos_eq_next.2 (.inl ⟨h, rfl⟩))

/-- Settles O16: the RUNNING case of `Impl.serr_eq_next`. -/
theorem serrRaisesStreamError : Obligations.SerrRaisesStreamError := fun s _ _ h =>
  (exec_eq _ s).trans (Impl.serr_eq_next.2 (.inl ⟨h, rfl⟩))

theorem State.faulted_iff (s : State) : s.faulted = true ↔ s.numFault = true ∨ s.wcOvf = true := Bool.or_eq_true_iff

theorem State.faulted_eq_false_iff (s : State) : s.faulted = false ↔ s.numFault = false ∧ s.wcOvf = false :=
  Bool.or_eq_false_iff

theorem State.endedCleanly_iff (s : State) :
    s.endedCleanly = true ↔ s.life = .halted ∧ s.exitCode = 0 ∧ s.faulted = false := by
  simp [State.endedCleanly, State.ended, and_assoc]

/-- EOS ends a run cleanly exactly if no sticky flag is set (R225, R235, R236). -/
theorem State.finish_endedCleanly_iff (s : State) : s.finish.endedCleanly = true ↔ s.faulted = false :=
  s.finish.endedCleanly_iff.trans ⟨fun ⟨_, _, h⟩ => h, fun h => ⟨rfl, rfl, h⟩⟩

/-- In a run a status of 0 in HALTED says that there is no cause (R39). -/
theorem State.ExitOk.exitCode_eq_zero_iff {s : State} (hs : s.ExitOk) (hlife : s.life = .halted) :
    s.exitCode = 0 ↔ s.cause = .none := by
  rw [hs.2 hlife, ite_eq_left_iff]
  exact ⟨fun h => not_not.1 fun hcause => absurd (h hcause) (by decide), fun h hcause => absurd h hcause⟩

/-- Settles O58: the two ways into HALTED by `Impl.exec_enters_halted`, of which only EOS leaves the status 0, and the exit
status of the invariant. -/
theorem cleanEndsAreThoseOfEos : Obligations.CleanEndsAreThoseOfEos := by
  refine ⟨State.faulted_iff, fun i s t h hs ht => ?_, fun s idx data hlife hclean => ?_, fun s hinv => ?_⟩
  · rw [exec_eq] at h
    obtain ⟨hi, rfl⟩ | ⟨hi, hexit⟩ := Impl.exec_enters_halted h hs ht
    · exact ⟨iff_of_true rfl hi, s.finish_endedCleanly_iff.trans (and_iff_right hi).symm⟩
    · have hne : t.exitCode ≠ 0 := by
        rw [hexit]
        decide
      have hnot : ¬t.endedCleanly = true := fun hclean =>
        have ⟨_, hzero, _⟩ := t.endedCleanly_iff.1 hclean
        hne hzero
      exact ⟨iff_of_false hne hi, iff_of_false hnot fun ⟨heos, _⟩ => hi heos⟩
  · exact ⟨s.finish, eosEndsCleanly s idx data hlife, s.finish_endedCleanly_iff.2 hclean⟩
  · obtain ⟨-, -, -, -, hexit, -, -, -⟩ := hinv
    rw [s.endedCleanly_iff, s.faulted_eq_false_iff]
    exact and_congr_right fun hlife => and_congr_left' (hexit.exitCode_eq_zero_iff hlife)

end Sys2Proof.Machine
end

section
/-! PROOFS. RESET (R222), CFGW (R220) and CSRR (R221) over the register space (R35 to R43). -/

namespace Sys2Proof.Machine

/-! ### RESET -/

/-- The telemetry registers read 0 after RESET (R43, R46). -/
theorem State.restart_csrRead_telemetry (s : State) {k : CsrIndex} (hlo : 0x40 ≤ k) (hhi : k ≤ 0x4B) :
    (s.restart F32.ieee32).csrRead k = 0 := by
  have hreset : ∀ m : Fin 12, State.reset.csrRead (BitVec.ofNat 8 (0x40 + m)) = 0 := by decide
  have hk : k = BitVec.ofNat 8 (0x40 + (k.toNat - 0x40)) := by bv_omega
  rw [hk]
  exact hreset ⟨k.toNat - 0x40, by bv_omega⟩

/-- The configuration registers after RESET are the images of the values of R36. -/
theorem CfgRegs.reset_eq :
    CfgRegs.reset =
      { nTaps := 0, sampleRate := 0x483B8000, cutoff := 0, refPeriod := 0, phaseGain := 0, cycPerClock := 0
        cycPerBit := 0, lockThr := 0x3E19999A, ampThr := 0x3EC28F5C, kiFactor := 0x3F99999A, kfFactor := 0x3E800000
        mode := 0, tPeriodInit := 0, tPhaseInit := 0 } := by
  decide

/-- The `rst` pin comes first in a step, and does what RESET does (R222, log 12). -/
theorem step_of_rst {s : State} (h : s.rst = true) : step s = .next (s.pinReset F32.ieee32) := if_pos h

/-- Settles O9: the fields of the reset state, the first branch of a step, and `Impl.exec_leaves_halted`. -/
theorem resetRestoresEverything : Obligations.ResetRestoresEverything := by
  refine ⟨fun s idx data => ⟨s.restart F32.ieee32, rfl, rfl, rfl, rfl, rfl, rfl, rfl, rfl, rfl, CfgRegs.reset_eq, ?_, ?_,
    ?_, rfl, rfl, rfl, fun a => ?_, fun k => s.restart_csrRead_telemetry, rfl, rfl⟩, fun s t hrst h => ?_,
    fun i s t hs h ht => ?_⟩
  · simp [State.initial]
  · simp [State.initial]
  · simp [State.initial]
  · exact ⟨rfl, rfl, rfl⟩
  · cases h
    exact step_of_rst hrst
  · rw [exec_eq] at h
    exact Impl.exec_leaves_halted h hs ht

/-! ### CFGW -/

/-- The images of the configuration registers in the order of their numbers 0x00 to 0x0D (R36). -/
def CfgRegs.words (c : CfgRegs V) : List Image :=
  [c.nTaps, c.sampleRate, c.cutoff, c.refPeriod, c.phaseGain, c.cycPerClock, c.cycPerBit, c.lockThr, c.ampThr,
    c.kiFactor, c.kfFactor, c.mode, c.tPeriodInit, c.tPhaseInit]

/-- A number up to 0x0D reads the configuration register at that place. -/
theorem State.getElem?_words_cfg (s : State) {k : CsrIndex} (hk : k ≤ 0x0D) :
    s.cfg.words[k.toNat]? = some (s.csrRead k) := by
  have hreads : ∀ m, m < 14 → s.cfg.words[m]? = some (s.csrRead (BitVec.ofNat 8 m)) := by
    intro m hm
    interval_cases m <;> rfl
  simpa using hreads k.toNat (by bv_omega)

/-- CFGW replaces the image at the place its number names (R220). -/
theorem CfgRegs.words_write (c : CfgRegs V) {idx : CsrIndex} (hidx : idx ≤ 0x0D) (data : Image) :
    (c.write F32.ieee32 idx data).words = c.words.set idx.toNat data := by
  have hwrites : ∀ m, m < 14 → (c.write F32.ieee32 (BitVec.ofNat 8 m) data).words = c.words.set m data := by
    intro m hm
    interval_cases m <;> rfl
  simpa using hwrites idx.toNat (by bv_omega)

/-- Settles O10: a number up to 0x0D sets one element of `CfgRegs.words`, which CSRR reads, and one above names none. -/
theorem cfgwWritesOneRegister : Obligations.CfgwWritesOneRegister := by
  intro s idx data hlife
  have hexec := exec_cfgw_of_unconfigured hlife idx data
  refine ⟨_, hexec, rfl, fun hgt => eq_of_exec_cfgw_of_gt (by bv_omega) hexec, fun hle => ⟨?_, fun k hk hne => ?_⟩⟩
  · apply Option.some.inj
    rw [← State.getElem?_words_cfg _ hle, State.setCfg_cfg, CfgRegs.words_write _ hle,
      List.getElem?_set_self (by simp only [CfgRegs.words, List.length]; bv_omega)]
  · apply Option.some.inj
    rw [← State.getElem?_words_cfg _ hk, ← State.getElem?_words_cfg _ hk, State.setCfg_cfg, CfgRegs.words_write _ hle,
      List.getElem?_set_ne fun h => hne (BitVec.eq_of_toNat_eq h.symm)]

/-! ### CSRR -/

/-- The numbers between and above the blocks of the register map name no register and read 0 (R35). -/
theorem State.csrRead_reserved (s : State) {idx : CsrIndex}
    (h : (0x0D < idx.toNat ∧ idx.toNat < 0x10) ∨ (0x14 < idx.toNat ∧ idx.toNat < 0x20) ∨
      (0x22 < idx.toNat ∧ idx.toNat < 0x30) ∨ (0x38 < idx.toNat ∧ idx.toNat < 0x40) ∨ 0x4B < idx.toNat) :
    s.csrRead idx = 0 := by
  unfold State.csrRead State.csr
  split
  case h_44 => rfl
  all_goals omega

/-- Settles O11: the answer is the register's value, and `State.csrRead_reserved`. -/
theorem csrrAnswersAndChangesNothing : Obligations.CsrrAnswersAndChangesNothing := fun s _ _ =>
  ⟨rfl, rfl, s.csrRead_reserved⟩

end Sys2Proof.Machine
end

section
/-! PROOFS. The tick's ends, ACQ (R208) and TLM.EMIT (R216). -/

namespace Sys2Proof.Machine

/-- Settles O38: the three updates of TLM.EMIT are one. -/
theorem tlmEmitLatchesAndSendsTheRecord : Obligations.TlmEmitLatchesAndSendsTheRecord := fun s => exec_eq _ s

/-- A finite pattern is the real it denotes (R9). -/
theorem realOfSample_of_finite {w : BitVec 32} (h : F32.finite w = true) : realOfSample w = F32.toReal w := if_pos h

/-- Settles O26: `ofSample` takes every pattern on the default numerics; under `NUM_REAL` a pattern that is not finite is the
one line that raises. -/
theorem acqTakesTheSample : Obligations.AcqTakesTheSample := by
  refine ⟨execAcq_eq, fun s => ⟨_, rfl, rfl, fun hfin => ⟨realOfSample_of_finite hfin, ?_, ?_⟩, fun hbad => ?_⟩⟩
  · simp [hfin]
  · simp [hfin]
  · simp [hbad, firstFault]

end Sys2Proof.Machine
end

section
/-! PROOFS. A TICK run by the sequencer, one micro-operation a step (R24, R206, R207). -/

namespace Sys2Proof.Machine

/-- A tick is in progress at the phase `ph` (R24, R81), and the pin is low. -/
structure State.InTick (ph : Phase) (s : State) : Prop where
  rst : s.rst = false
  cmdReady : s.cmdReady = false
  ph : s.ph = ph

variable {ph : Phase} {i : Instr} {s : State}

theorem State.InTick.step_eq (hs : s.InTick ph) (hi : encode i = .phase ph) : step s = Impl.ieee32.exec i s :=
  (stepRunsSequencedMicroOp s i hs.rst hs.cmdReady (hs.ph ▸ encode_eq_phase_iff.1 hi)).trans (exec_eq i s)

/-- A micro-operation but the last hands the tick on at the next phase (R24). -/
theorem State.InTick.next {t : State} (hs : s.InTick ph) (hi : encode i = .phase ph) (hne : i ≠ .tlmEmit)
    (h : Impl.ieee32.exec i s = .next t) : t.InTick (ph + 1) where
  rst := (Impl.microOp_keepsSetup ⟨ph, hi⟩ h).rst.trans hs.rst
  cmdReady := ((Impl.microOp_leavesOthers ⟨ph, hi⟩ h).telemetry hne).2.trans hs.cmdReady
  ph := hs.ph ▸ Impl.microOp_ph (hs.ph ▸ hi) hne h

/-- Sequences that go on alike from every next state of their first part are equal: a stop stays that stop. -/
theorem andThen_congr {α : Type} {r : Result α} {f g : State α → Result α} (h : ∀ t, r = .next t → f t = g t) :
    andThen r f = andThen r g := by
  cases r with
  | next t => exact h t rfl
  | fault | refused => rfl

/-- The micro-operation of a phase and what `k` steps do from the next phase on are `k + 1` steps. -/
theorem State.InTick.andThen_exec (hs : s.InTick ph) (i : Instr) (hi : encode i = .phase ph) (hne : i ≠ .tlmEmit)
    {f : State → Result} {k : Nat} (hf : ∀ t, t.InTick (ph + 1) → f t = t.steps k) :
    andThen (Impl.ieee32.exec i s) f = s.steps (k + 1) := by
  rw [State.steps, hs.step_eq hi]
  exact andThen_congr fun t h => hf t (hs.next hi hne h)

/-- TLM.EMIT is the one step left at phase 8. -/
theorem State.InTick.tlmEmit_eq (hs : s.InTick 8) : Impl.ieee32.tlmEmit s = s.steps 1 := by
  rw [State.steps, hs.step_eq (i := .tlmEmit) rfl]
  rfl

/-- The sequence of R207 is nine steps from phase 0. -/
theorem State.InTick.runTick_eq (hs : s.InTick 0) : Impl.ieee32.runTick s = s.steps 9 :=
  hs.andThen_exec .acq rfl nofun fun _ hs => hs.andThen_exec .ncoStep rfl nofun fun _ hs =>
  hs.andThen_exec .mix rfl nofun fun _ hs => hs.andThen_exec .firI rfl nofun fun _ hs =>
  hs.andThen_exec .firQ rfl nofun fun _ hs => hs.andThen_exec .loopUpdate rfl nofun fun _ hs =>
  hs.andThen_exec .lockEval rfl nofun fun _ hs => hs.andThen_exec .decStep rfl nofun fun _ hs => hs.tlmEmit_eq

/-- TICK while RUNNING begins a tick and runs it to its end (R206). -/
theorem exec_tick_of_running (h : s.life = .running) (idx : CsrIndex) (data : BitVec 32) :
    exec (.tick idx data) s = Impl.ieee32.runTick (s.beginTick data) := if_pos h

/-- Settles O23: the sequencer is at phase 0 when the tick has begun. -/
theorem tickIsNineSequencerSteps : Obligations.TickIsNineSequencerSteps := fun _ idx data hlife hrst =>
  (exec_tick_of_running hlife idx data).trans (State.InTick.runTick_eq ⟨hrst, rfl, rfl⟩)

end Sys2Proof.Machine
end

section
/-! PROOFS. A whole TICK (R206): where it completes, and what it sends (R217, R243). -/

namespace Sys2Proof.Machine

variable {α : Type}

/-! ### Where a tick completes -/

/-- Both cursors name an element of the history (R74) and `MODE` selects a formula for the loop filter (R37). -/
structure State.CanTick (s : State α) : Prop where
  curI : s.curI < s.cfg.nTaps.toNat
  curQ : s.curQ < s.cfg.nTaps.toNat
  mode : ∃ z, loopMode s.cfg.mode = some z

/-- With cursors in range and a formula selected no micro-operation stops, and both stay so. -/
theorem Impl.microOp_completes [DecidableEq α] {p : Impl α} {i : Instr} {s : State α} (hs : s.CanTick)
    (hi : ∃ ph, encode i = .phase ph) : ∃ t, p.exec i s = .next t ∧ t.CanTick := by
  obtain ⟨hI, hQ, hmode⟩ := hs
  have hpos : 0 < s.cfg.nTaps.toNat := Nat.zero_lt_of_lt hI
  rcases microOp_cases hi with rfl | rfl | rfl | rfl | rfl | rfl | rfl | rfl | rfl
  · exact ⟨_, rfl, hI, hQ, hmode⟩
  · exact ⟨_, rfl, hI, hQ, hmode⟩
  · exact ⟨_, rfl, hI, hQ, hmode⟩
  · exact ⟨_, Impl.firI_eq_next.2 ⟨hI, rfl⟩, Nat.mod_lt _ hpos, hQ, hmode⟩
  · exact ⟨_, Impl.firQ_eq_next.2 ⟨hQ, rfl⟩, hI, Nat.mod_lt _ hpos, hmode⟩
  · have ⟨z, hz⟩ := hmode
    exact ⟨_, Impl.loopUpdate_eq_next.2 ⟨z, _, hz, rfl, rfl⟩, hI, hQ, hmode⟩
  · exact ⟨_, rfl, hI, hQ, hmode⟩
  · obtain h | ⟨g, -, -, -, h⟩ := p.decStep_cases s <;> exact ⟨_, h, hI, hQ, hmode⟩
  · exact ⟨_, rfl, hI, hQ, hmode⟩

/-- A tick completes where each of its micro-operations does (R206). -/
theorem Impl.runTick_completes [DecidableEq α] {p : Impl α} {s : State α} (hs : s.CanTick) :
    ∃ t, p.runTick s = .next t := by
  obtain ⟨s1, hacq, hs⟩ := p.microOp_completes (i := .acq) hs ⟨_, rfl⟩
  obtain ⟨s2, hnco, hs⟩ := p.microOp_completes (i := .ncoStep) hs ⟨_, rfl⟩
  obtain ⟨s3, hmix, hs⟩ := p.microOp_completes (i := .mix) hs ⟨_, rfl⟩
  obtain ⟨s4, hfirI, hs⟩ := p.microOp_completes (i := .firI) hs ⟨_, rfl⟩
  obtain ⟨s5, hfirQ, hs⟩ := p.microOp_completes (i := .firQ) hs ⟨_, rfl⟩
  obtain ⟨s6, hloop, hs⟩ := p.microOp_completes (i := .loopUpdate) hs ⟨_, rfl⟩
  obtain ⟨s7, hlock, hs⟩ := p.microOp_completes (i := .lockEval) hs ⟨_, rfl⟩
  obtain ⟨s8, hdec, hs⟩ := p.microOp_completes (i := .decStep) hs ⟨_, rfl⟩
  obtain ⟨t, htlm, -⟩ := p.microOp_completes (i := .tlmEmit) hs ⟨_, rfl⟩
  exact ⟨t, Impl.runTick_eq_next.2 ⟨s1, s2, s3, s4, s5, s6, s7, s8, hacq, hnco, hmix, hfirI, hfirQ, hloop, hlock, hdec,
    htlm⟩⟩

/-! ### What the last micro-operations send -/

/-- The event of the edge of `LOCKED` (R174). -/
theorem lockEvents_eq (old new : Bool) (lockM : α) :
    lockEvents old new lockM =
      if old = false ∧ new = true then [.lockAcq]
      else if old = true ∧ new = false then [.lockLost lockM] else [] := by
  cases old <;> cases new <;> rfl

/-- The events DEC.STEP sends: on a transition (R186, R187, R188) those of the table of R194, else none. -/
def State.decoderEvents (n : Num α) (s : State α) : List (Event α) :=
  if s.dec.locked = true ∧ n.fgt (n.fabs s.loc.sI) s.cfg.ampThr = true ∧ sgn2 n s.loc.sI ≠ s.dec.prevSign then
    (if 2 * s.osc.wc ≤ s.drv.halfThr2 then (if s.dec.short = false then [] else [.bit false])
      else if s.dec.short = false then [.bit true] else [.bit true, .anomaly])
  else []

theorem State.decoderEvents_cases (n : Num α) (s : State α) :
    s.decoderEvents n = [] ∨ s.decoderEvents n = [.bit false] ∨ s.decoderEvents n = [.bit true] ∨
      s.decoderEvents n = [.bit true, .anomaly] := by
  unfold State.decoderEvents
  split_ifs <;> simp

/-- The decoder is dormant without lock (R186). -/
theorem State.decoderEvents_of_unlocked (n : Num α) {s : State α} (h : s.dec.locked = false) :
    s.decoderEvents n = [] := if_neg fun ⟨hlocked, _⟩ => Bool.false_ne_true (h.symm.trans hlocked)

theorem Impl.decStep_out {p : Impl α} {s t : State α} (h : p.decStep s = .next t) :
    t.out = s.out ++ (s.decoderEvents p.num).map .event := by
  by_cases hq : qualifies p.num s.dec.locked s.cfg.ampThr s.loc.sI = true ∧ sgn2 p.num s.loc.sI ≠ s.dec.prevSign
  · have ⟨hqual, hsign⟩ := hq
    cases h.symm.trans (Impl.decStep_eq_transition hqual hsign)
    rw [qualifies_eq_true_iff, and_assoc] at hq
    rw [State.decoderEvents, if_pos hq, State.advance_out, transition_out, decodeInterval_isLong]
    split_ifs <;> rfl
  · have hdormant : qualifies p.num s.dec.locked s.cfg.ampThr s.loc.sI = false ∨
        sgn2 p.num s.loc.sI = s.dec.prevSign := by
      simpa only [not_and_or, Bool.not_eq_true, not_not] using hq
    cases h.symm.trans (Impl.decStep_eq_advance hdormant)
    rw [qualifies_eq_true_iff, and_assoc] at hq
    rw [State.decoderEvents, if_neg hq]
    exact (List.append_nil _).symm

/-- DEC.STEP writes no tick-local value and no register of the loop (R33). -/
theorem Impl.decStep_loc_loop {p : Impl α} {s t : State α} (h : p.decStep s = .next t) :
    t.loc = s.loc ∧ t.loop = s.loop := by
  obtain h' | ⟨g, -, -, -, h'⟩ := p.decStep_cases s <;> (cases h.symm.trans h'; exact ⟨rfl, rfl⟩)

/-- LOCK.EVAL writes `LOCKED` alone of the decoder's registers, by the lock metric, and sends the event of its edge (R173,
R174, R176). -/
theorem Impl.lockEval_sends {p : Impl α} {s t : State α} (h : p.lockEval s = .next t) :
    t.dec = { s.dec with locked := p.num.fgt t.loop.lockM s.cfg.lockThr } ∧
      t.out = s.out ++ (lockEvents s.dec.locked t.dec.locked t.loop.lockM).map .event ∧ t.osc = s.osc ∧
      t.loc = s.loc := by
  cases h; exact ⟨rfl, rfl, rfl, rfl⟩

/-- TLM.EMIT sends the record it latches (R216). -/
theorem Impl.tlmEmit_sends {p : Impl α} {s t : State α} (h : p.tlmEmit s = .next t) :
    t.out = s.out ++ [.telemetry t.tlm] ∧ t.tlm = s.record ∧ t.dec = s.dec ∧ t.loop = s.loop := by
  cases h; exact ⟨rfl, rfl, rfl, rfl⟩

/-! ### The tick in two parts -/

/-- `t` has the setup, the decoder, the outputs, the wave counter and the sample of `s`. -/
structure State.KeepsStream (s t : State α) : Prop where
  setup : s.KeepsSetup t
  dec : t.dec = s.dec
  out : t.out = s.out
  wc : t.osc.wc = s.osc.wc
  x : t.loc.x = s.loc.x

theorem State.KeepsStream.trans {s t u : State α} (h : s.KeepsStream t) (k : t.KeepsStream u) : s.KeepsStream u where
  setup := h.setup.trans k.setup
  dec := k.dec.trans h.dec
  out := k.out.trans h.out
  wc := k.wc.trans h.wc
  x := k.x.trans h.x

/-- The micro-operations between NCO.STEP and LOCK.EVAL count no wave, send nothing and keep the sample (R33). -/
theorem Impl.microOp_keepsStream [DecidableEq α] {p : Impl α} {i : Instr} {s t : State α} (h : p.exec i s = .next t)
    (hi : i = .mix ∨ i = .firI ∨ i = .firQ ∨ i = .loopUpdate) : s.KeepsStream t := by
  obtain rfl | rfl | rfl | rfl := hi
  · exact ⟨Impl.mix_keepsSetup h, by cases h; rfl, by cases h; rfl, by cases h; rfl, by cases h; rfl⟩
  · obtain ⟨-, rfl⟩ := Impl.firI_eq_next.1 h
    exact ⟨Impl.firI_keepsSetup h, rfl, rfl, rfl, rfl⟩
  · obtain ⟨-, rfl⟩ := Impl.firQ_eq_next.1 h
    exact ⟨Impl.firQ_keepsSetup h, rfl, rfl, rfl, rfl⟩
  · have hsetup := Impl.loopUpdate_keepsSetup h
    obtain ⟨z, r, -, -, rfl⟩ := Impl.loopUpdate_eq_next.1 h
    exact ⟨hsetup, rfl, rfl, rfl, rfl⟩

/-- `u` is as a tick that begins in `s` finds it before LOCK.EVAL: setup, decoder and outputs as in `s`, the wave counter as
NCO.STEP leaves it, the sample as ACQ takes it. -/
structure State.ReachesLockEval (p : Impl α) (s u : State α) : Prop where
  setup : s.KeepsSetup u
  dec : u.dec = s.dec
  out : u.out = s.out
  wc : u.osc.wc = wcNext p.wcBits
    (ncoAdvance p.num s.drv.samplePeriod s.osc.tPeriod s.osc.tPhase s.osc.acc).wrapped s.osc.wc
  x : u.loc.x = sampleOperand p.num s.loc.data

/-- A tick that completes reaches LOCK.EVAL and runs the last three micro-operations from there (R207). -/
theorem Impl.runTick_reaches_lockEval [DecidableEq α] {p : Impl α} {s t : State α} (h : p.runTick s = .next t) :
    ∃ u v w, State.ReachesLockEval p s u ∧ p.lockEval u = .next v ∧ p.decStep v = .next w ∧
      p.tlmEmit w = .next t := by
  obtain ⟨_, _, _, _, _, u, v, w, hacq, hnco, hmix, hfirI, hfirQ, hloop, hlock, hdec, htlm⟩ :=
    Impl.runTick_eq_next.1 h
  have hkeeps := (microOp_keepsStream (i := .mix) hmix (by decide)).trans <|
    (microOp_keepsStream (i := .firI) hfirI (by decide)).trans <|
    (microOp_keepsStream (i := .firQ) hfirQ (by decide)).trans <|
    microOp_keepsStream (i := .loopUpdate) hloop (by decide)
  have hsetup := (Impl.acq_keepsSetup hacq).trans ((Impl.ncoStep_keepsSetup hnco).trans hkeeps.setup)
  cases hacq
  cases hnco
  exact ⟨u, v, w, ⟨hsetup, hkeeps.dec, hkeeps.out, hkeeps.wc, hkeeps.x⟩, hlock, hdec, htlm⟩

/-- What a tick sends (R217): the lock event, the events of the decoder as LOCK.EVAL leaves it in `v`, the record. -/
theorem Impl.runTick_sends [DecidableEq α] {p : Impl α} {s t : State α} (h : p.runTick s = .next t) :
    ∃ v : State α,
      t.out = s.out ++ (lockEvents s.dec.locked t.dec.locked t.loop.lockM ++ v.decoderEvents p.num).map .event ++
        [.telemetry t.tlm] ∧
      t.dec.locked = p.num.fgt t.loop.lockM s.cfg.lockThr ∧ t.tlm.sample = sampleOperand p.num s.loc.data ∧
      v.dec = { s.dec with locked := t.dec.locked } ∧ v.loc.sI = t.tlm.sI ∧ v.cfg = s.cfg ∧ v.drv = s.drv ∧
      v.osc.wc = wcNext p.wcBits
        (ncoAdvance p.num s.drv.samplePeriod s.osc.tPeriod s.osc.tPhase s.osc.acc).wrapped s.osc.wc := by
  obtain ⟨u, v, w, hu, hlock, hdec, htlm⟩ := Impl.runTick_reaches_lockEval h
  obtain ⟨hvdec, hvout, hvosc, hvloc⟩ := Impl.lockEval_sends hlock
  obtain ⟨hwloc, hwloop⟩ := Impl.decStep_loc_loop hdec
  obtain ⟨-, -, hwlocked⟩ := (Impl.microOp_leavesOthers (i := .decStep) ⟨_, rfl⟩ hdec).lock nofun
  obtain ⟨htout, htlm', htdec, htloop⟩ := Impl.tlmEmit_sends htlm
  have hsetup := hu.setup.trans (Impl.lockEval_keepsSetup hlock)
  have hlocked : t.dec.locked = v.dec.locked := by rw [htdec, hwlocked]
  have hloop : t.loop = v.loop := htloop.trans hwloop
  refine ⟨v, ?_, ?_, ?_, ?_, ?_, hsetup.cfg, hsetup.drv, ?_⟩
  · rw [htout, Impl.decStep_out hdec, hvout, hu.out, hu.dec, hlocked, hloop, List.map_append]
    simp only [List.append_assoc]
  · rw [hlocked, hloop, hvdec, hu.setup.cfg]
  · rw [htlm', State.record, hwloc, hvloc, hu.x]
  · rw [hlocked, hvdec, hu.dec]
  · rw [htlm', State.record, hwloc]
  · rw [hvosc, hu.wc]

/-! ### The obligation -/

/-- After a tick the block is between commands (R24, R32, R81). -/
theorem Impl.runTick_endsTick {s t : State} (h : Impl.ieee32.runTick s = .next t) :
    t.cmdReady = true ∧ t.ph = 0 ∧ t.loc = TickLocal.none := by
  obtain ⟨_, _, _, -, -, -, htlm⟩ := Impl.runTick_reaches_lockEval h
  exact Impl.tlmEmit_endsTick htlm

/-- Below its greatest value the counter counts every wrap (R132). -/
theorem wcNext_of_lt {b c : Nat} (h : c < 2 ^ b - 1) (wrapped : Bool) :
    wcNext (some b) wrapped c = if wrapped = true then c + 1 else c := by
  rw [wcNext, wcFull_some, decide_eq_false (Nat.not_le.2 h), Bool.not_false, Bool.and_true]

/-- The oscillator wraps where the sum of accumulator and increment is above two pi (R131, R136). -/
theorem ncoAdvance_ieee32_wrapped (samplePeriod tPeriod tPhase acc : V) :
    (ncoAdvance F32.ieee32 samplePeriod tPeriod tPhase acc).wrapped =
      F32.gt (F32.add acc (F32.div (F32.mul samplePeriod 0x40C90FDB) tPeriod)) 0x40C90FDB := by
  simp only [ncoAdvance, phaseIncrement, F32.ieee32_twoPi]
  rfl

/-- Settles O24: `Impl.runTick_completes`, and `Impl.runTick_sends` with the events told by `lockEvents_eq` and
`State.decoderEvents`. -/
theorem tickCompletesAndSendsInOrder : Obligations.TickCompletesAndSendsInOrder := by
  intro s idx data hlife hI hQ hsign hdisc hwrap
  obtain ⟨z, hmode, -⟩ := exists_loopMode_eq_some hsign hdisc hwrap F32.ieee32 0
  have hcan : (s.beginTick data).CanTick := ⟨hI, hQ, z, hmode⟩
  obtain ⟨t, ht⟩ := Impl.ieee32.runTick_completes hcan
  obtain ⟨v, hout, hlocked, hsample, hdec, hsI, hcfg, hdrv, hwc⟩ := Impl.runTick_sends ht
  obtain ⟨hready, hph, hloc⟩ := Impl.runTick_endsTick ht
  have hk := (s.beginTick_keepsSetup data).trans (Impl.runTick_keepsSetup ht)
  have hdormant (h : t.dec.locked = false) : v.decoderEvents F32.ieee32 = [] :=
    State.decoderEvents_of_unlocked _ (by rw [hdec, h])
  refine ⟨t, _, v.decoderEvents F32.ieee32, (exec_tick_of_running hlife idx data).trans ht, hout, lockEvents_eq ..,
    hlocked, v.decoderEvents_cases _, hdormant, ?_, hsample, hph, hready, hloc, hk.cfg, hk.drv, hk.coef, hk.life,
    hk.cause, hk.exitCode, hk.cmds, hk.rst⟩
  intro a w sign hlt
  have hw : v.osc.wc = w := by
    rw [hwc, State.beginTick_osc, Impl.ieee32_wcBits, wcNext_of_lt hlt, Impl.ieee32_num, ncoAdvance_ieee32_wrapped]
    rfl
  rw [State.decoderEvents, hdec, hsI, hcfg, hdrv, hw]
  rfl

end Sys2Proof.Machine
end

section
/-! PROOFS. Quotients that are not finite (R9), commands out of place (R247), the moves of `LIFE` (R245) and of `CAUSE`
(R39), and ConfigurationError (R117, R231). -/

namespace Sys2Proof.Machine.F32

/-- A value that is not finite is a NaN or an infinity (R9). -/
theorem isNaN_or_isInf_of_not_finite {v : V} (h : finite v = false) : isNaN v = true ∨ isInf v = true := by
  simp only [finite, isNaN, isInf, decide_eq_true_eq, decide_eq_false_iff_not] at *
  omega

theorem finite_infinity (s : Bool) : finite (infinity s) = false := by cases s <;> decide

/-- The quotient of a dividend that is not finite is not finite (R9): a NaN or an infinity. -/
theorem finite_div_eq_false_of_left {a b : V} (h : finite a = false) : finite (div a b) = false := by
  obtain hnan | hinf := isNaN_or_isInf_of_not_finite h
  · exact finite_of_isNaN (isNaN_div (.inl hnan))
  · simp only [div, hinf, if_true, pack_infMag_eq]
    split
    · exact finite_nanOf ..
    split
    · exact finite_nanOf ..
    · exact finite_infinity _

/-- Only the two zeros compare equal to `+0` (R9). -/
theorem mag_eq_zero_of_eq_zero {v : V} (h : eq v 0 = true) : mag v = 0 := by
  have hkey : key v = 0 := by
    simp only [eq, Bool.and_eq_true, decide_eq_true_eq] at h
    exact h.2
  unfold key at hkey
  split at hkey <;> omega

/-- No quotient by zero is finite (R9). -/
theorem finite_div_eq_false_of_zero {a b : V} (h : eq b 0 = true) : finite (div a b) = false := by
  have hmag := mag_eq_zero_of_eq_zero h
  cases ha : finite a with
  | false => exact finite_div_eq_false_of_left ha
  | true =>
    rw [div_zero_divisor ha (finite_iff.2 (by rw [hmag]; decide)) (toReal_eq_zero_iff.2 hmag)]
    split
    · exact finite_nanOf ..
    · exact finite_infinity _

end Sys2Proof.Machine.F32

namespace Sys2Proof.Machine

variable {α : Type}

/-! ### Commands out of place -/

/-- Settles O17: the case of each command outside its lifecycle state. -/
theorem unadmittedCommandsChangeNothing : Obligations.UnadmittedCommandsChangeNothing := fun s _ _ =>
  ⟨fun h => ⟨(exec_eq _ s).trans (Impl.cfgw_eq_next.2 (.inr ⟨h, rfl⟩)),
      (exec_eq _ s).trans (Impl.design_eq_next.2 (.inl ⟨h, rfl⟩))⟩,
    fun h => ⟨(exec_eq _ s).trans (Impl.tick_eq_next.2 (.inr ⟨h, rfl⟩)),
      (exec_eq _ s).trans (eos_eq_next.2 (.inr ⟨h, rfl⟩)),
      (exec_eq _ s).trans (Impl.serr_eq_next.2 (.inr ⟨h, rfl⟩))⟩⟩

/-! ### The moves of LIFE and CAUSE -/

/-- Settles O49: the moves of `Impl.exec_life`. -/
theorem lifecycleMovesAsListed : Obligations.LifecycleMovesAsListed := by
  intro i s t h hmoves
  rw [exec_eq] at h
  obtain hlife | hreset | ⟨hi, hs, ht | ⟨ht, hcause, -⟩⟩ | ⟨⟨idx, data, hi⟩, hs, ht, -⟩ |
    ⟨⟨idx, data, hi⟩, hs, rfl⟩ := Impl.exec_life h
  · exact absurd hlife hmoves
  · exact .inl hreset
  · exact .inr (.inl ⟨hi, hs, .inl ht⟩)
  · exact .inr (.inl ⟨hi, hs, .inr ⟨ht, hcause⟩⟩)
  · exact .inr (.inr ⟨⟨idx, data, .inr hi⟩, hs, ht⟩)
  · exact .inr (.inr ⟨⟨idx, data, .inl hi⟩, hs, rfl⟩)

/-- What an operation does to `CAUSE`: nothing, or it clears it, or it raises the one fatal error that is its own (R230). -/
theorem Impl.exec_cause [DecidableEq α] {p : Impl α} {i : Instr} {s t : State α} (h : p.exec i s = .next t) :
    t.cause = s.cause ∨
    ((∃ idx data, i = .reset idx data ∨ i = .eos idx data) ∧ t.cause = .none) ∨
    ((∃ idx data, i = .design idx data) ∧ t.cause = .configurationError) ∨
    ((∃ idx data, i = .serr idx data) ∧ t.cause = .streamError) := by
  cases i with
  | reset idx data => cases h; exact .inr (.inl ⟨⟨idx, data, .inl rfl⟩, rfl⟩)
  | cfgw => obtain ⟨-, rfl⟩ | ⟨-, rfl⟩ := Impl.cfgw_eq_next.1 h <;> exact .inl rfl
  | csrr => cases h; exact .inl rfl
  | design idx data =>
    obtain ⟨-, rfl⟩ | ⟨-, -, rfl⟩ | ⟨-, -, -, rfl⟩ := Impl.design_eq_next.1 h
    · exact .inl rfl
    · exact .inr (.inr (.inl ⟨⟨idx, data, rfl⟩, rfl⟩))
    · exact .inl rfl
  | tick =>
    obtain ⟨-, hrun⟩ | ⟨-, rfl⟩ := Impl.tick_eq_next.1 h
    · exact .inl (runTick_keepsSetup hrun).cause
    · exact .inl rfl
  | eos idx data =>
    obtain ⟨-, rfl⟩ | ⟨-, rfl⟩ := eos_eq_next.1 h
    · exact .inr (.inl ⟨⟨idx, data, .inr rfl⟩, rfl⟩)
    · exact .inl rfl
  | serr idx data =>
    obtain ⟨-, rfl⟩ | ⟨-, rfl⟩ := Impl.serr_eq_next.1 h
    · exact .inr (.inr (.inr ⟨⟨idx, data, rfl⟩, rfl⟩))
    · exact .inl rfl
  | _ => exact .inl (microOp_keepsSetup ⟨_, rfl⟩ h).cause

/-! ### ConfigurationError -/

/-- What DESIGN raises before the Nyquist test: NumericFault exactly if `FC` is not finite (R11), since neither a zero
divisor nor a dividend that is not finite leaves a finite quotient. -/
theorem CfgRegs.fc_raises_iff (c : CfgRegs V) :
    raisesNumeric F32.ieee32 [c.sampleRate] (c.fcMade F32.ieee32) = true ↔ F32.finite (c.fc F32.ieee32) = false := by
  simp only [raisesNumeric_iff, CfgRegs.fcMade, CfgRegs.fc, normalizedCutoff, List.mem_cons, List.not_mem_nil, or_false,
    exists_eq_left, exists_eq_or_imp, F32.ieee32_feq, F32.ieee32_zero, F32.ieee32_finite, F32.ieee32_fmul,
    F32.ieee32_fdiv, F32.ieee32_ofNat]
  constructor
  · rintro (hzero | hdividend | hquotient)
    · exact F32.finite_div_eq_false_of_zero hzero
    · exact F32.finite_div_eq_false_of_left hdividend
    · exact hquotient
  · exact fun hquotient => .inr (.inr hquotient)

/-- The state a ConfigurationError leaves: it is recorded second to the NumericFault `raised` says (R239). -/
theorem State.raiseFatal_configurationError (s : State α) (p : Impl α) (fc : α) (raised : Bool) :
    ((s.clearRecord.setFc fc).noteIf raised).raiseFatal p .configurationError =
      { s with
        life := .halted, cause := .configurationError, exitCode := p.exitFailCode, ph := 0
        drv := { s.drv with fc := fc }
        numFault := s.numFault || raised
        recorded := if raised then some .numericFault else some .configurationError } := by
  cases raised <;> rfl

/-- Settles O18: of the moves of `Impl.exec_cause` only DESIGN's is to ConfigurationError, and the Nyquist case of DESIGN
raises NumericFault by `CfgRegs.fc_raises_iff`. -/
theorem designRaisesConfigurationError : Obligations.DesignRaisesConfigurationError := by
  refine ⟨fun i s t h hs ht => ?_, ?_⟩
  · rw [exec_eq] at h
    obtain hcause | ⟨-, hcause⟩ | ⟨hdesign, -⟩ | ⟨-, hcause⟩ := Impl.exec_cause h
    · exact absurd (hcause.symm.trans ht) hs
    · cases hcause.symm.trans ht
    · exact hdesign
    · cases hcause.symm.trans ht
  · intro s idx data hlife fc raised hnyquist
    have hraised : raisesNumeric F32.ieee32 [s.cfg.sampleRate] (s.cfg.fcMade F32.ieee32) = raised := by
      simp [raisesNumeric, anyNonFinite, CfgRegs.fcMade, CfgRegs.fc, normalizedCutoff, raised, fc, Bool.or_assoc]
    rw [← hraised]
    refine ⟨(exec_eq _ s).trans (Impl.design_eq_next.2 (.inr (.inl ⟨hlife, hnyquist, ?_⟩))), s.cfg.fc_raises_iff⟩
    exact (s.raiseFatal_configurationError Impl.ieee32 _ _).symm

end Sys2Proof.Machine
end

section
/-! PROOFS. In a state of the invariant nothing but DESIGN on an ill-formed configuration stops the machine (R233, R266). -/

namespace Sys2Proof.Machine

/-! ### Micro-operations and ticks -/

/-- A legal `MODE` selects a formula for the loop filter (R37). -/
theorem exists_loopMode_of_modeLegal {m : Image} (h : modeLegal m = true) : ∃ z, loopMode m = some z := by
  simp only [modeLegal, Bool.and_eq_true, Bool.not_eq_true', beq_iff_eq] at h
  obtain ⟨⟨⟨⟨hsign, -⟩, hdisc⟩, hwrap⟩, -⟩ := h
  rw [loopMode_eq_discSignZero hdisc hwrap]
  exact Option.isSome_iff_exists.1 hsign

/-- In a run a RUNNING block can tick. -/
theorem State.Inv.canTick {s : State} (hs : s.Inv) (hlife : s.life = .running) : s.CanTick := by
  obtain ⟨-, -, ⟨hrange, -⟩, hdesign, -⟩ := hs
  obtain ⟨hI, hQ⟩ := hrange hlife
  obtain ⟨hmode, -⟩ := hdesign hlife
  exact ⟨hI, hQ, exists_loopMode_of_modeLegal hmode⟩

/-- The phases 0 to 8 select a micro-operation (R24, R84). -/
theorem exists_decodePhase_of_le {ph : Phase} (h : ph.toNat ≤ 8) : ∃ i, decodePhase ph = .ok i := by
  have hall : ∀ ph : Phase, ph.toNat ≤ 8 → (decodePhase ph).isOk = true := by decide
  cases hdec : decodePhase ph with
  | ok i => exact ⟨i, rfl⟩
  | error e =>
    have hok := hall ph h
    rw [hdec] at hok
    cases hok

/-- A tick in progress goes on. -/
theorem State.Inv.sequencer_completes {s : State} (hs : s.Inv) (hrst : s.rst = false) (hbusy : s.cmdReady = false) :
    ∃ t, step s = .next t := by
  have ⟨_, hseq, _⟩ := hs
  obtain ⟨hlife, hph⟩ := hseq.2 hbusy
  obtain ⟨i, hi⟩ := exists_decodePhase_of_le hph
  obtain ⟨t, ht, -⟩ := Impl.ieee32.microOp_completes (hs.canTick hlife) ⟨_, encode_eq_phase_iff.2 hi⟩
  exact ⟨t, (stepRunsSequencedMicroOp s i hrst hbusy hi).trans ((exec_eq i s).trans ht)⟩

/-! ### Host commands -/

/-- DESIGN completes, or is refused in UNCONFIGURED for an ill-formed configuration (R266, log 8). -/
theorem Impl.design_completes_or_refused {α : Type} [DecidableEq α] (p : Impl α) (s : State α) :
    (∃ t, p.design s = .next t) ∨ (p.design s = .refused .illFormedConfig ∧ s.life = .unconfigured) := by
  by_cases hlife : s.life = .unconfigured
  · cases hnyquist : p.num.fge (s.cfg.fc p.num) (p.num.ofNat 1)
    · cases hrun : s.cfg.runnable p
      · exact .inr ⟨by rw [Impl.design, if_neg (not_not.2 hlife), hnyquist, hrun]; rfl, hlife⟩
      · exact .inl ⟨_, Impl.design_eq_next.2 (.inr (.inr ⟨hlife, hnyquist, hrun, rfl⟩))⟩
    · exact .inl ⟨_, Impl.design_eq_next.2 (.inr (.inl ⟨hlife, hnyquist, rfl⟩))⟩
  · exact .inl ⟨_, Impl.design_eq_next.2 (.inl ⟨hlife, rfl⟩)⟩

/-- In a run TICK completes: ignored, or a tick of a block that can tick. -/
theorem State.Inv.tick_completes {s : State} (hs : s.Inv) (data : BitVec 32) :
    ∃ t, Impl.ieee32.tick data s = .next t := by
  by_cases hlife : s.life = .running
  · have ⟨hI, hQ, hmode⟩ := hs.canTick hlife
    obtain ⟨t, ht⟩ := Impl.ieee32.runTick_completes (s := s.beginTick data) ⟨hI, hQ, hmode⟩
    exact ⟨t, Impl.tick_eq_next.2 (.inl ⟨hlife, ht⟩)⟩
  · exact ⟨s, Impl.tick_eq_next.2 (.inr ⟨hlife, rfl⟩)⟩

/-- In a run every host command completes, but for DESIGN on an ill-formed configuration. -/
theorem State.Inv.command_completes {s : State} {w : CommandWord} {i : Instr} (hs : s.Inv)
    (hi : decodeCommand w = .ok i) :
    (∃ t, exec i s = .next t) ∨
      (exec i s = .refused .illFormedConfig ∧ s.life = .unconfigured ∧ ∃ idx data, i = .design idx data) := by
  rw [exec_eq]
  obtain rfl | rfl | rfl | rfl | rfl | rfl | rfl := decodeCommand_ok hi
  · exact .inl ⟨_, rfl⟩
  · exact .inl ⟨_, rfl⟩
  · exact .inl ⟨_, rfl⟩
  · obtain h | ⟨h, hlife⟩ := Impl.ieee32.design_completes_or_refused s
    · exact .inl h
    · exact .inr ⟨h, hlife, _, _, rfl⟩
  · exact .inl (hs.tick_completes _)
  · exact .inl ⟨_, rfl⟩
  · exact .inl ⟨_, rfl⟩

/-- Settles O47, by what selects the next operation: the pin and the port without a command complete, a command is
`State.Inv.command_completes` and a tick in progress `State.Inv.sequencer_completes`. -/
theorem onlyIllFormedDesignStopsARun : Obligations.OnlyIllFormedDesignStopsARun := by
  intro s hs
  cases hrst : s.rst with
  | true => exact .inl ⟨_, step_of_rst hrst⟩
  | false =>
    cases hready : s.cmdReady with
    | false => exact .inl (hs.sequencer_completes hrst hready)
    | true =>
      obtain ⟨hwaits, hignores⟩ := stepWaitsOrIgnoresReservedWord s hrst hready
      cases hcmds : s.cmds with
      | nil => exact .inl ⟨s, hwaits hcmds⟩
      | cons w rest =>
        cases hdec : decodeCommand w with
        | error e => exact .inl ⟨_, hignores w rest e hcmds hdec⟩
        | ok i =>
          have haccept : (s.accept rest).Inv := hs
          rw [stepRunsDecodedCommand s w rest i hrst hready hcmds hdec]
          obtain h | ⟨h, hlife, idx, data, rfl⟩ := haccept.command_completes hdec
          · exact .inl h
          · exact .inr ⟨h, hlife, w, rest, idx, data, rfl, hdec⟩

end Sys2Proof.Machine
end

section
/-! PROOFS. The conditions of R266 on a configuration, one by one, and where DESIGN stops (R266, R239). -/

namespace Sys2Proof.Machine.F32

/-- `fgt` is the strict part of `fge` (R9). -/
theorem ge_of_gt {a b : V} (h : gt a b = true) : ge a b = true := by
  simp only [gt, ge, Bool.and_eq_true, decide_eq_true_eq] at h ⊢
  obtain ⟨hnan, hlt⟩ := h
  exact ⟨hnan, hlt.le⟩

/-- A value below another is not at least that other (R9). -/
theorem ge_eq_false_of_gt {a b : V} (h : gt a b = true) : ge b a = false := by
  simp only [gt, Bool.and_eq_true, decide_eq_true_eq] at h
  obtain ⟨-, hlt⟩ := h
  simp [ge, hlt]

end Sys2Proof.Machine.F32

namespace Sys2Proof.Machine

variable {α : Type}

/-- `PREV_SIGN_RESET` has one reserved value (R37). -/
theorem prevSignReset_eq_none_iff (m : Image) : prevSignReset m = none ↔ m.extractLsb' 3 2 = 2 := by
  unfold prevSignReset
  generalize m.extractLsb' 3 2 = f
  revert f
  decide

/-- A legal `MODE` has no reserved field or value set (R37). -/
theorem modeLegal_iff (m : Image) :
    modeLegal m = true ↔
      m.extractLsb' 1 2 ≠ 3 ∧ m.extractLsb' 3 2 ≠ 2 ∧ m.getLsbD 5 = false ∧ m.extractLsb' 6 2 = 0 ∧
        m.extractLsb' 8 24 = 0 := by
  simp only [modeLegal, Bool.and_eq_true, Bool.not_eq_true', beq_iff_eq, and_assoc, Option.isSome_iff_ne_none, Ne,
    discSignZero_eq_none_iff, prevSignReset_eq_none_iff, discMode, wrapPolicy, modeReserved]

/-- The tap counts R266 allows, for a bounded `N_MAX` and for an unbounded one (log 7). -/
theorem tapsLegal_iff (nMax : Option Nat) (n : Nat) :
    tapsLegal nMax n = true ↔ 1 ≤ n ∧ (∀ d, nMax = some d → n ≤ d) ∧ n < 2 ^ 24 := by
  simp only [tapsLegal, Bool.and_eq_true, decide_eq_true_eq]
  cases nMax with
  | none => simp
  | some d => simp only [decide_eq_true_eq, Option.some.injEq, forall_eq', and_assoc, and_comm (a := n < 2 ^ 24)]

/-- What DESIGN asks of a configuration, condition by condition (R266, log 8). -/
theorem CfgRegs.runnable_iff {c : CfgRegs α} {p : Impl α} :
    c.runnable p = true ↔
      tapsLegal p.nMax c.nTaps.toNat = true ∧ (∀ v ∈ c.values, p.num.finite v = true) ∧
        p.num.fge c.sampleRate p.num.zero = true ∧ p.num.fge c.refPeriod p.num.zero = true ∧
        p.num.feq c.tPeriodInit p.num.zero = false ∧ p.num.fge c.ampThr p.num.zero = true ∧
        c.cycSum < 2 ^ 32 ∧ modeLegal c.mode = true := by
  simp only [CfgRegs.runnable, Bool.and_eq_true, Bool.not_eq_true', decide_eq_true_eq, List.all_eq_true,
    and_assoc]

/-- A well-formed configuration is one DESIGN runs on whose two divisors are not zero (R266, log 8). -/
theorem CfgRegs.wellFormed_iff {c : CfgRegs α} {p : Impl α} :
    c.wellFormed p = true ↔
      c.runnable p = true ∧ p.num.fgt c.sampleRate p.num.zero = true ∧ p.num.fgt c.refPeriod p.num.zero = true := by
  simp only [CfgRegs.wellFormed, Bool.and_eq_true, and_assoc]

/-- The values of type `V` of a configuration, one by one (R36). -/
theorem CfgRegs.values_finite_iff {c : CfgRegs α} {n : Num α} :
    (∀ v ∈ c.values, n.finite v = true) ↔
      n.finite c.sampleRate = true ∧ n.finite c.cutoff = true ∧ n.finite c.refPeriod = true ∧
        n.finite c.phaseGain = true ∧ n.finite c.lockThr = true ∧ n.finite c.ampThr = true ∧
        n.finite c.kiFactor = true ∧ n.finite c.kfFactor = true ∧ n.finite c.tPeriodInit = true ∧
        n.finite c.tPhaseInit = true := by
  simp only [CfgRegs.values, List.forall_mem_cons, List.not_mem_nil, false_imp_iff, implies_true, and_true]

/-- Settles O55, by `CfgRegs.runnable_iff` and `CfgRegs.wellFormed_iff`: a divisor above zero is at least zero. -/
theorem wellFormedConfigurationIsTheListOfR266 : Obligations.WellFormedConfigurationIsTheListOfR266 := by
  intro c common
  have hrun : c.runnable Impl.ieee32 = true ↔
      common ∧ F32.ge c.sampleRate 0 = true ∧ F32.ge c.refPeriod 0 = true := by
    rw [CfgRegs.runnable_iff, tapsLegal_iff, modeLegal_iff, Impl.ieee32_num, F32.ieee32_zero, CfgRegs.values_finite_iff]
    constructor
    · rintro ⟨⟨hone, hdepth, hmax⟩, hfinite, hrate, hperiod, hinit, hamp, hcyc, hmode⟩
      exact ⟨⟨hone, hdepth, hmax, hfinite, hinit, hamp, hcyc, hmode⟩, hrate, hperiod⟩
    · rintro ⟨⟨hone, hdepth, hmax, hfinite, hinit, hamp, hcyc, hmode⟩, hrate, hperiod⟩
      exact ⟨⟨hone, hdepth, hmax⟩, hfinite, hrate, hperiod, hinit, hamp, hcyc, hmode⟩
  refine ⟨?_, hrun⟩
  rw [CfgRegs.wellFormed_iff, hrun]
  constructor
  · rintro ⟨⟨hcommon, -⟩, hpos⟩
    exact ⟨hcommon, hpos⟩
  · rintro ⟨hcommon, hrate, hperiod⟩
    exact ⟨⟨hcommon, F32.ge_of_gt hrate, F32.ge_of_gt hperiod⟩, hrate, hperiod⟩

/-- DESIGN is refused below the Nyquist limit where it does not run (R266, log 8). -/
theorem Impl.design_refused [DecidableEq α] {p : Impl α} {s : State α} (hlife : s.life = .unconfigured)
    (hnyquist : p.num.fge (s.cfg.fc p.num) (p.num.ofNat 1) = false) (hrun : s.cfg.runnable p ≠ true) :
    p.design s = .refused .illFormedConfig := by
  obtain ⟨t, ht⟩ | ⟨hrefused, -⟩ := p.design_completes_or_refused s
  · obtain ⟨hne, -⟩ | ⟨-, hge, -⟩ | ⟨-, -, h, -⟩ := Impl.design_eq_next.1 ht
    · exact absurd hlife hne
    · exact absurd hge (Bool.eq_false_iff.1 hnyquist)
    · exact absurd h hrun
  · exact hrefused

/-- Settles O21, by `Impl.design_refused`: each condition broken contradicts its own of `CfgRegs.runnable_iff`. -/
theorem designStopsOnIllFormedConfiguration : Obligations.DesignStopsOnIllFormedConfiguration := by
  intro s idx data hlife hnyquist hbroken
  rw [exec_eq]
  refine Impl.design_refused hlife hnyquist fun hrun => ?_
  obtain ⟨htaps, hfinite, hrate, hperiod, hinit, hamp, hcyc, hmode⟩ := CfgRegs.runnable_iff.1 hrun
  obtain ⟨hone, -, hmax⟩ := (tapsLegal_iff _ _).1 htaps
  obtain ⟨hsign, hprev, hdisc, hwrap, hreserved⟩ := (modeLegal_iff _).1 hmode
  rw [Impl.ieee32_num, F32.ieee32_zero] at hrate hperiod hinit hamp
  have not_negative {v : V} (hge : F32.ge v 0 = true) (hneg : F32.gt 0 v = true) : False :=
    Bool.eq_false_iff.1 (F32.ge_eq_false_of_gt hneg) hge
  obtain h | h | ⟨v, hv, h⟩ | h | h | h | h | h | h | h | h | h | h := hbroken
  · simp [h] at hone
  · exact absurd h (Nat.not_le.2 hmax)
  · exact absurd (hfinite v hv) (Bool.eq_false_iff.1 h)
  · exact not_negative hrate h
  · exact not_negative hperiod h
  · exact absurd h (Bool.eq_false_iff.1 hinit)
  · exact not_negative hamp h
  · exact absurd h (Nat.not_le.2 hcyc)
  · exact hsign h
  · exact hprev h
  · exact absurd h (Bool.eq_false_iff.1 hdisc)
  · exact h hwrap
  · exact h hreserved

end Sys2Proof.Machine
end

section
/-! PROOFS. What a tick takes from the tick before and leaves for the next (R271). -/

namespace Sys2Proof.Machine

variable {α : Type}

/-- `t` has the accumulator and the references of `s`. -/
structure State.KeepsReferences (s t : State α) : Prop where
  acc : t.osc.acc = s.osc.acc
  i : t.loc.i = s.loc.i
  q : t.loc.q = s.loc.q

theorem State.KeepsReferences.trans {s t u : State α} (h : s.KeepsReferences t) (k : t.KeepsReferences u) :
    s.KeepsReferences u where
  acc := k.acc.trans h.acc
  i := k.i.trans h.i
  q := k.q.trans h.q

/-- Between NCO.STEP, which makes the references, and TLM.EMIT, which ends the tick, no micro-operation writes them
(R32, R33). -/
theorem Impl.microOp_keepsReferences [DecidableEq α] {p : Impl α} {i : Instr} {s t : State α}
    (h : p.exec i s = .next t)
    (hi : i = .mix ∨ i = .firI ∨ i = .firQ ∨ i = .loopUpdate ∨ i = .lockEval ∨ i = .decStep) :
    s.KeepsReferences t := by
  obtain rfl | rfl | rfl | rfl | rfl | rfl := hi
  · cases h; constructor <;> rfl
  · obtain ⟨-, rfl⟩ := Impl.firI_eq_next.1 h
    constructor <;> rfl
  · obtain ⟨-, rfl⟩ := Impl.firQ_eq_next.1 h
    constructor <;> rfl
  · obtain ⟨z, r, -, -, rfl⟩ := Impl.loopUpdate_eq_next.1 h
    constructor <;> rfl
  · cases h; constructor <;> rfl
  · obtain h' | ⟨g, -, -, -, h'⟩ := p.decStep_cases s <;> (cases h.symm.trans h'; constructor <;> rfl)

/-- The accumulator a tick leaves and the references its record shows are those NCO.STEP makes from the registers of the
state the tick begins in (R130, R133, R136). -/
theorem Impl.runTick_references [DecidableEq α] {p : Impl α} {s t : State α} (h : p.runTick s = .next t) :
    let r := ncoAdvance p.num s.drv.samplePeriod s.osc.tPeriod s.osc.tPhase s.osc.acc
    t.osc.acc = r.acc ∧ t.tlm.i = r.i ∧ t.tlm.q = r.q := by
  obtain ⟨_, _, _, _, _, _, _, _, hacq, hnco, hmix, hfirI, hfirQ, hloop, hlock, hdec, htlm⟩ :=
    Impl.runTick_eq_next.1 h
  obtain ⟨hacc, hi, hq⟩ := (microOp_keepsReferences (i := .mix) hmix (by decide)).trans <|
    (microOp_keepsReferences (i := .firI) hfirI (by decide)).trans <|
    (microOp_keepsReferences (i := .firQ) hfirQ (by decide)).trans <|
    (microOp_keepsReferences (i := .loopUpdate) hloop (by decide)).trans <|
    (microOp_keepsReferences (i := .lockEval) hlock (by decide)).trans <|
    microOp_keepsReferences (i := .decStep) hdec (by decide)
  cases hacq
  cases hnco
  cases htlm
  exact ⟨hacc, hi, hq⟩

/-- The record of a tick shows the loop as the tick leaves it (R216). -/
theorem Impl.runTick_latches [DecidableEq α] {p : Impl α} {s t : State α} (h : p.runTick s = .next t) :
    t.tlm.tPeriod = t.osc.tPeriod ∧ t.tlm.tPhase = t.osc.tPhase ∧ t.tlm.errInt = t.loop.errInt ∧
      t.tlm.lock = t.loop.lockM ∧ t.tlm.qual = t.loop.qualM := by
  obtain ⟨_, _, _, -, -, -, htlm⟩ := Impl.runTick_reaches_lockEval h
  cases htlm; exact ⟨rfl, rfl, rfl, rfl, rfl⟩

/-- The accumulator and the references of the oscillator's step on the default numerics (R130, R133). -/
theorem ncoAdvance_ieee32_values (samplePeriod tPeriod tPhase acc : V) :
    let a := F32.add acc (F32.div (F32.mul samplePeriod 0x40C90FDB) tPeriod)
    let r := ncoAdvance F32.ieee32 samplePeriod tPeriod tPhase acc
    r.acc = (if F32.gt a 0x40C90FDB = true then F32.sub a 0x40C90FDB else a) ∧
      r.i = F32.cos (F32.add r.acc tPhase) ∧ r.q = F32.neg (F32.sin (F32.add r.acc tPhase)) := by
  simp only [ncoAdvance, phaseIncrement, F32.ieee32_twoPi]
  exact ⟨rfl, rfl, rfl⟩

/-- Settles O25: the oscillator by `Impl.runTick_references`, the record by `Impl.runTick_latches`. -/
theorem tickFeedsTheNextTick : Obligations.TickFeedsTheNextTick := by
  intro s t idx data hlife h a
  have hrun : Impl.ieee32.runTick (s.beginTick data) = .next t := (exec_tick_of_running hlife idx data).symm.trans h
  obtain ⟨hacc, hi, hq⟩ := Impl.runTick_references hrun
  obtain ⟨hacc', hi', hq'⟩ := ncoAdvance_ieee32_values s.drv.samplePeriod s.osc.tPeriod s.osc.tPhase s.osc.acc
  rw [hacc]
  exact ⟨hacc', hi.trans hi', hq.trans hq', Impl.runTick_latches hrun⟩

end Sys2Proof.Machine
end
